-- ==== Sys2Proof/Word.lean ====
section
/-!
DEFINITION. The word types of the block: command bytes, milli-unit codes, request and response words
(00_scope.md R7 to R9). Values that are only counted (milliseconds, products, quotients) are Nat (R10).
-/

namespace Sys2Proof

/-- One command byte, or one byte of a bus read (30_encoding.md R70, 20_memory.md R56). -/
abbrev Byte := BitVec 8

/-- A milli-unit code of 16 bits: the code c stands for c/1000 (00_scope.md R7). -/
abbrev Code := BitVec 16

/-- A request word, or the data word of a response (00_scope.md R7, 10_state.md R33). -/
abbrev Word := BitVec 32

/-- A 7-bit device address (10_state.md R23). -/
abbrev Addr := BitVec 7

end Sys2Proof
end

