-- ==== Sys2Proof/Config.lean ====
section
/-!
DEFINITION. What is fixed for the block's lifetime (00_scope.md R7, 10_state.md R31), the kinds of answer the
bus gives (20_memory.md R51 to R53), and the free values: opaque constants that nothing can evaluate.
-/

namespace Sys2Proof

/-- MTREG_TIE: how MTreg rounds an exact half (00_scope.md R7). -/
inductive TieRule where
  | halfEven
  | halfUp
  deriving DecidableEq, Repr

/-- RAW_BYTE_ORDER: which of the two read bytes is the high byte (00_scope.md R7). -/
inductive ByteOrder where
  | highFirst
  | lowFirst
  deriving DecidableEq, Repr

/-- The named parameters and the configuration value of 00_scope.md R7. No operation writes them
(10_state.md R31). -/
structure Config where
  /-- MTREG_TIE -/
  mtregTie : TieRule
  /-- RAW_BYTE_ORDER -/
  rawByteOrder : ByteOrder
  /-- P_RES_WRITES_BUS -/
  resWritesBus : Bool
  /-- P_RESET_RECORDS_MODE -/
  resetRecordsMode : Bool
  /-- BUS_CLK_HZ -/
  busClkHz : Nat
  deriving DecidableEq, Repr

/-- The defaults of 00_scope.md R7. -/
def defaultConfig : Config where
  mtregTie := .halfEven
  rawByteOrder := .highFirst
  resWritesBus := false
  resetRecordsMode := false
  busClkHz := 400000

/-- What BusStart returns (20_memory.md R51). -/
inductive StartAnswer where
  | ok
  | peripheralError
  deriving DecidableEq, Repr, Inhabited

/-- What BusWrite returns or raises (20_memory.md R52). -/
inductive WriteAnswer where
  | ok
  | busError
  deriving DecidableEq, Repr, Inhabited

/-- What BusRead(2) returns, in arrival order, or raises (20_memory.md R53). -/
inductive ReadAnswer where
  | bytes (b0 b1 : Byte)
  | busError
  deriving DecidableEq, Repr, Inhabited

/-! The free values. The counter they are applied to is the number of port transactions issued so far
(log 2) or of responses taken so far (log 6), or the operands of the lux division (log 8). -/

/-- The bus's answer to a BusStart that `Env.starts` does not script: a draw (20_memory.md R65). -/
opaque Config.freeStart : Nat → StartAnswer

/-- The bus's answer to a BusWrite that `Env.writes` does not script: a draw (20_memory.md R65). -/
opaque Config.freeWrite : Nat → WriteAnswer

/-- The bus's answer to a BusRead that `Env.reads` does not script: a draw (20_memory.md R65). -/
opaque Config.freeRead : Nat → ReadAnswer

/-- By how many milliseconds a Sleep that `Env.lateness` does not script overruns: unconstrained
(70_reset_and_hazards.md R243). -/
opaque Config.freeLateness : Nat → Nat

/-- For how many steps the host leaves a response pending that `Env.delays` does not script: a choice of the host
(20_memory.md R64; log 6). -/
opaque Config.freeDelay : Nat → Nat

/-- The lux word where 43_measurement.md R175 gives none: the divisor is 0 or the quotient leaves 32 bits.
Operands: raw, ACC, SENS, RES (log 8). -/
opaque Config.freeLux : BitVec 16 → Code → Code → BitVec 3 → Word

end Sys2Proof
end

