-- ==== Sys2Proof/Syntax.lean ====
section
/-!
DEFINITION. The instructions: one constructor per row of spec/opcode_table.json. The REQ32 rows are the host's
operations (30_encoding.md R72); the WIRE8 rows are the command bytes the block puts on the bus (R77).
Also the assembler's lines (R82).
-/

namespace Sys2Proof

/-- One constructor per row of spec/opcode_table.json, with its operand at the width the encoding gives it. -/
inductive Instr where
  /-- INIT addr (40_construction.md R100) -/
  | init (addr : BitVec 16)
  /-- SET_MODE m (41_mode.md R121) -/
  | setMode (m : Byte)
  /-- RESET (41_mode.md R123) -/
  | reset
  /-- SET_SENS f (42_calibration.md R144) -/
  | setSens (f : Code)
  /-- GET_SENS (42_calibration.md R145) -/
  | getSens
  /-- SET_ACC a (42_calibration.md R148) -/
  | setAcc (a : Code)
  /-- GET_ACC (42_calibration.md R149) -/
  | getAcc
  /-- SET_RES r (41_mode.md R127) -/
  | setRes (r : BitVec 16)
  /-- GET_RES (41_mode.md R128) -/
  | getRes
  /-- GET_VALUE (43_measurement.md R178) -/
  | getValue
  /-- GET_STATUS (40_construction.md R110) -/
  | getStatus
  /-- Power Down, 0x00 (30_encoding.md R77) -/
  | powerDown
  /-- Power On, 0x01 -/
  | powerOn
  /-- Reset (the sensor's data register), 0x07 -/
  | resetDr
  /-- Continuous High-Res 1, 0x10 -/
  | contHRes
  /-- Continuous High-Res 2, 0x11 -/
  | contHRes2
  /-- Continuous Low-Res, 0x13 -/
  | contLRes
  /-- One-Time High-Res 1, 0x20 -/
  | oneHRes
  /-- One-Time High-Res 2, 0x21 -/
  | oneHRes2
  /-- One-Time Low-Res, 0x23 -/
  | oneLRes
  /-- MTreg High half, 01000hhh with h = MTREG[7:5] (30_encoding.md R76, R80) -/
  | mtregHi (h : BitVec 3)
  /-- MTreg Low half, 011lllll with l = MTREG[4:0] -/
  | mtregLo (l : BitVec 5)
  deriving DecidableEq, Repr

/-- Is it one of the operations of 30_encoding.md R72 (a REQ32 row)? The others are command bytes. -/
def Instr.isRequest : Instr → Bool
  | .init _ => true
  | .setMode _ => true
  | .reset => true
  | .setSens _ => true
  | .getSens => true
  | .setAcc _ => true
  | .getAcc => true
  | .setRes _ => true
  | .getRes => true
  | .getValue => true
  | .getStatus => true
  | .powerDown => false
  | .powerOn => false
  | .resetDr => false
  | .contHRes => false
  | .contHRes2 => false
  | .contLRes => false
  | .oneHRes => false
  | .oneHRes2 => false
  | .oneLRes => false
  | .mtregHi _ => false
  | .mtregLo _ => false

/-- The assembler's mnemonics: the eleven operations and the two pseudo-instructions that take a decimal
(30_encoding.md R82). -/
inductive AsmOp where
  | init | setMode | reset | setSens | getSens | setAcc | getAcc | setRes | getRes | getValue | getStatus
  | setSensF | setAccF
  deriving DecidableEq, Repr

/-- An assembler operand (30_encoding.md R82): none, a plain number, or a decimal given by its whole part and
its fraction digits in order. -/
inductive AsmOperand where
  | absent
  | num (n : Nat)
  | decimal (whole : Nat) (frac : List (Fin 10))
  deriving DecidableEq, Repr

/-- One assembler line `MNEMONIC [operand]` (30_encoding.md R82), already split into tokens (log 18). -/
structure AsmLine where
  op : AsmOp
  operand : AsmOperand
  deriving DecidableEq, Repr

end Sys2Proof
end

