-- ==== Sys2Proof/WellFormed.lean ====
section
/-!
DEFINITION. What is well formed. A term of Instr is well formed by its types: every operand has exactly the
width its encoding gives it, so there is no ill-formed Instr. The checks are on what comes from outside:
request words (30_encoding.md R74), command bytes (R77) and assembler lines (R82).
-/

namespace Sys2Proof

/-- op, bits 31:28 of a request word (30_encoding.md R71). -/
abbrev opField (w : Word) : BitVec 4 := w.extractLsb' 28 4

/-- rsv, bits 27:16 of a request word (30_encoding.md R71). -/
abbrev rsvField (w : Word) : BitVec 12 := w.extractLsb' 16 12

/-- imm, bits 15:0 of a request word (30_encoding.md R71). -/
abbrev immField (w : Word) : BitVec 16 := w.extractLsb' 0 16

/-- First check of 30_encoding.md R74: op is not in 0xB to 0xF. -/
def opDefined (w : Word) : Bool := decide ((opField w).toNat ≤ 0xA)

/-- Second check of 30_encoding.md R74: rsv is zero. -/
def rsvZero (w : Word) : Bool := decide (rsvField w = 0)

/-- The imm bits that must be zero, by op (30_encoding.md R72). -/
def immMustBeZero (op : BitVec 4) : BitVec 16 :=
  match op.toNat with
  | 0x0 => 0x0000
  | 0x1 => 0xFF00
  | 0x3 => 0x0000
  | 0x5 => 0x0000
  | 0x7 => 0x0000
  | _ => 0xFFFF

/-- Third check of 30_encoding.md R74: no imm bit that must be zero is 1. -/
def immZeroWhereDue (w : Word) : Bool := decide (immField w &&& immMustBeZero (opField w) = 0)

/-- A legal request word (30_encoding.md R74). -/
def legalRequest (w : Word) : Bool := opDefined w && rsvZero w && immZeroWhereDue w

/-- A command byte of the table of 30_encoding.md R77. -/
def knownCommand (b : Byte) : Bool :=
  [0x00, 0x01, 0x07, 0x10, 0x11, 0x13, 0x20, 0x21, 0x23].contains b
    || decide (0x40 ≤ b ∧ b ≤ 0x47) || decide (0x60 ≤ b ∧ b ≤ 0x7F)

/-- The milli-unit code of a decimal with at most three fraction digits (30_encoding.md R82: the value times
1000); none with more digits. -/
def milliCode (whole : Nat) : List (Fin 10) → Option Nat
  | [] => some (1000 * whole)
  | [a] => some (1000 * whole + 100 * a)
  | [a, b] => some (1000 * whole + 100 * a + 10 * b)
  | [a, b, c] => some (1000 * whole + 100 * a + 10 * b + c)
  | _ => none

/-- An operand that fits `bits` bits, as the number it stands for; a decimal only where one is asked for. -/
def AsmOperand.value (bits : Nat) (asDecimal : Bool) : AsmOperand → Option Nat
  | .absent => none
  | .num n => if asDecimal = false ∧ n < 2 ^ bits then some n else none
  | .decimal w f =>
    match milliCode w f with
    | some n => if asDecimal = true ∧ n < 2 ^ bits then some n else none
    | none => none

/-- The operand of a line, with the defaults of 30_encoding.md R82; none where the assembler rejects the line. -/
def AsmLine.imm (l : AsmLine) : Option Nat :=
  match l.op, l.operand with
  | .init, .absent => some 0x23
  | .init, o => o.value 16 false
  | .setMode, o => o.value 8 false
  | .setSens, .absent => some 1000
  | .setSens, o => o.value 16 false
  | .setAcc, .absent => some 1200
  | .setAcc, o => o.value 16 false
  | .setRes, o => o.value 16 false
  | .setSensF, o => o.value 16 true
  | .setAccF, o => o.value 16 true
  | .reset, .absent => some 0
  | .getSens, .absent => some 0
  | .getAcc, .absent => some 0
  | .getRes, .absent => some 0
  | .getValue, .absent => some 0
  | .getStatus, .absent => some 0
  | _, _ => none

/-- A line the assembler accepts (30_encoding.md R82). -/
def AsmLine.wellFormed (l : AsmLine) : Bool := l.imm.isSome

end Sys2Proof
end

