-- ==== Sys2Proof/Decode.lean ====
section
/-!
DEFINITION. Decoding (30_encoding.md R70 to R77) and, after it, encoding. Decoding is total: what names no
instruction is rejected by name. The port a word arrives on tells its format (R70).
-/

namespace Sys2Proof

/-- A word on one of the two ports that carry instructions (30_encoding.md R70). -/
inductive PortWord where
  /-- a REQ32 word at the request port -/
  | req (w : Word)
  /-- a WIRE8 byte on the bus -/
  | wire (b : Byte)
  deriving DecidableEq, Repr

/-- Why a word names no instruction. -/
inductive DecodeError where
  /-- op in 0xB to 0xF (30_encoding.md R74) -/
  | reservedOp
  /-- rsv is not zero (R74) -/
  | reservedBits
  /-- an imm bit that must be zero is 1 (R74) -/
  | operandBits
  /-- a command byte outside the table of R77 -/
  | unknownCommand
  deriving DecidableEq, Repr

/-- The operation a request word names, its op taken apart and the imm bits that must be zero checked
(30_encoding.md R72, R73); rsv is checked in `decodeRequest`. -/
def decodeOp (op : BitVec 4) (imm : BitVec 16) : Except DecodeError Instr :=
  let bare (i : Instr) : Except DecodeError Instr := if imm = 0 then .ok i else .error .operandBits
  match op.toNat with
  | 0x0 => .ok (.init imm)
  | 0x1 => if imm.extractLsb' 8 8 = 0 then .ok (.setMode (imm.extractLsb' 0 8)) else .error .operandBits
  | 0x2 => bare .reset
  | 0x3 => .ok (.setSens imm)
  | 0x4 => bare .getSens
  | 0x5 => .ok (.setAcc imm)
  | 0x6 => bare .getAcc
  | 0x7 => .ok (.setRes imm)
  | 0x8 => bare .getRes
  | 0x9 => bare .getValue
  | 0xA => bare .getStatus
  | _ => .error .reservedOp

/-- The request decoder (30_encoding.md R71 to R74). -/
def decodeRequest (w : Word) : Except DecodeError Instr :=
  if 0xB ≤ (opField w).toNat then .error .reservedOp
  else if rsvField w ≠ 0 then .error .reservedBits
  else decodeOp (opField w) (immField w)

/-- The command byte decoder (30_encoding.md R76, R77). -/
def decodeWire (b : Byte) : Except DecodeError Instr :=
  if b = 0x00 then .ok .powerDown
  else if b = 0x01 then .ok .powerOn
  else if b = 0x07 then .ok .resetDr
  else if b = 0x10 then .ok .contHRes
  else if b = 0x11 then .ok .contHRes2
  else if b = 0x13 then .ok .contLRes
  else if b = 0x20 then .ok .oneHRes
  else if b = 0x21 then .ok .oneHRes2
  else if b = 0x23 then .ok .oneLRes
  else if b.extractLsb' 3 5 = 0b01000 then .ok (.mtregHi (b.extractLsb' 0 3))
  else if b.extractLsb' 5 3 = 0b011 then .ok (.mtregLo (b.extractLsb' 0 5))
  else .error .unknownCommand

/-- Decoding of whatever stands on either port. -/
def decode : PortWord → Except DecodeError Instr
  | .req w => decodeRequest w
  | .wire b => decodeWire b

/-! ## Encoding -/

/-- `{op, rsv = 0, imm}` (30_encoding.md R71). -/
def packRequest (op : BitVec 4) (imm : BitVec 16) : Word := op.setWidth 32 <<< 28 ||| imm.setWidth 32

/-- The MTreg high half tag over its three bits, 01000hhh (30_encoding.md R76). -/
def packMtregHi (h : BitVec 3) : Byte := 0x40 ||| h.setWidth 8

/-- The MTreg low half tag over its five bits, 011lllll (30_encoding.md R76). -/
def packMtregLo (l : BitVec 5) : Byte := 0x60 ||| l.setWidth 8

/-- The words of an instruction (30_encoding.md R71, R72, R77). -/
def encode : Instr → PortWord
  | .init addr => .req (packRequest 0x0 addr)
  | .setMode m => .req (packRequest 0x1 (m.setWidth 16))
  | .reset => .req (packRequest 0x2 0)
  | .setSens f => .req (packRequest 0x3 f)
  | .getSens => .req (packRequest 0x4 0)
  | .setAcc a => .req (packRequest 0x5 a)
  | .getAcc => .req (packRequest 0x6 0)
  | .setRes r => .req (packRequest 0x7 r)
  | .getRes => .req (packRequest 0x8 0)
  | .getValue => .req (packRequest 0x9 0)
  | .getStatus => .req (packRequest 0xA 0)
  | .powerDown => .wire 0x00
  | .powerOn => .wire 0x01
  | .resetDr => .wire 0x07
  | .contHRes => .wire 0x10
  | .contHRes2 => .wire 0x11
  | .contLRes => .wire 0x13
  | .oneHRes => .wire 0x20
  | .oneHRes2 => .wire 0x21
  | .oneLRes => .wire 0x23
  | .mtregHi h => .wire (packMtregHi h)
  | .mtregLo l => .wire (packMtregLo l)

/-! ## Match and mask -/

/-- A row of the opcode table: a word w is selected when `(w & mask) = match` (30_encoding.md R75, and the WIRE8
rows of spec/opcode_table.json). -/
inductive Row where
  | req (bits mask : Word)
  | wire (bits mask : Byte)
  deriving DecidableEq, Repr

/-- Does the row select the word? A row of one format selects no word of the other port. -/
def Row.selects : Row → PortWord → Bool
  | .req bits mask, .req w => decide (w &&& mask = bits)
  | .wire bits mask, .wire b => decide (b &&& mask = bits)
  | .req _ _, .wire _ => false
  | .wire _ _, .req _ => false

/-- The row of each instruction: the match and mask columns of 30_encoding.md R75 and spec/opcode_table.json. -/
def Instr.row : Instr → Row
  | .init _ => .req 0x00000000 0xFFFF0000
  | .setMode _ => .req 0x10000000 0xFFFFFF00
  | .reset => .req 0x20000000 0xFFFFFFFF
  | .setSens _ => .req 0x30000000 0xFFFF0000
  | .getSens => .req 0x40000000 0xFFFFFFFF
  | .setAcc _ => .req 0x50000000 0xFFFF0000
  | .getAcc => .req 0x60000000 0xFFFFFFFF
  | .setRes _ => .req 0x70000000 0xFFFF0000
  | .getRes => .req 0x80000000 0xFFFFFFFF
  | .getValue => .req 0x90000000 0xFFFFFFFF
  | .getStatus => .req 0xA0000000 0xFFFFFFFF
  | .powerDown => .wire 0x00 0xFF
  | .powerOn => .wire 0x01 0xFF
  | .resetDr => .wire 0x07 0xFF
  | .contHRes => .wire 0x10 0xFF
  | .contHRes2 => .wire 0x11 0xFF
  | .contLRes => .wire 0x13 0xFF
  | .oneHRes => .wire 0x20 0xFF
  | .oneHRes2 => .wire 0x21 0xFF
  | .oneLRes => .wire 0x23 0xFF
  | .mtregHi _ => .wire 0x40 0xF8
  | .mtregLo _ => .wire 0x60 0xE0

/-! ## The assembler -/

/-- The instruction an accepted assembler line stands for, pseudo-instructions expanded (30_encoding.md R82). -/
def AsmLine.toInstr (l : AsmLine) : Option Instr :=
  match l.imm with
  | none => none
  | some n =>
    some (match l.op with
      | .init => .init (BitVec.ofNat 16 n)
      | .setMode => .setMode (BitVec.ofNat 8 n)
      | .reset => .reset
      | .setSens => .setSens (BitVec.ofNat 16 n)
      | .getSens => .getSens
      | .setAcc => .setAcc (BitVec.ofNat 16 n)
      | .getAcc => .getAcc
      | .setRes => .setRes (BitVec.ofNat 16 n)
      | .getRes => .getRes
      | .getValue => .getValue
      | .getStatus => .getStatus
      | .setSensF => .setSens (BitVec.ofNat 16 n)
      | .setAccF => .setAcc (BitVec.ofNat 16 n))

/-- The word the assembler gives for a line, none where it rejects the line (30_encoding.md R82). -/
def assemble (l : AsmLine) : Option PortWord := l.toInstr.map encode

/-! ## The host's view of the opcode table -/

/-- The instruction decoded from a table row's bits: rows of 8 bits are command bytes, longer ones request words
(30_encoding.md R70). -/
def decodeTableWord (nbits w : Nat) : Option Instr :=
  (decode (if nbits ≤ 8 then .wire (BitVec.ofNat 8 (w % 2 ^ nbits))
    else .req (BitVec.ofNat 32 (w % 2 ^ nbits)))).toOption

end Sys2Proof
end

