-- ==== Sys2Proof/Machine/State.lean ====
section
/-!
DEFINITION. The state of the block (10_state.md R20 to R33), what it has shown of itself (70_reset_and_hazards.md
R233), the inputs that wait for it (20_memory.md R64, R65), and its state after power-on reset (R38, R230).
-/

namespace Sys2Proof.Machine

/-- RSP_STATUS, by the names of 60_exceptions.md R201; its 4-bit code is `Status.code` (log 21). -/
inductive Status where
  | ok
  | errInvalidAddress
  | errInvalidResolution
  | errBus
  | errNotInitialised
  | errIllegalRequest
  deriving DecidableEq, Repr

/-- The response registers RSP_STATUS and RSP_DATA (10_state.md R33). -/
structure Response where
  status : Status
  data : Word
  deriving DecidableEq, Repr

/-- One transaction on the bus or clock port, with the device address it targets and its outcome
(20_memory.md R51 to R54, R58). -/
inductive Transaction where
  /-- BusStart(addr, hz) -/
  | start (addr : Addr) (hz : Nat) (answer : StartAnswer)
  /-- BusWrite(byte) -/
  | write (addr : Addr) (byte : Byte) (answer : WriteAnswer)
  /-- BusRead(2) -/
  | read (addr : Addr) (answer : ReadAnswer)
  /-- Sleep(ms), which returned after `elapsed` milliseconds -/
  | sleep (ms elapsed : Nat)
  deriving DecidableEq, Repr

/-- The transient values of one operation (10_state.md R30; `startFailed` is the `st` of 40_construction.md R101,
`m` the `m` of 43_measurement.md R178). They exist only while the operation runs. -/
structure Transient where
  startFailed : Bool
  m : Byte
  /-- WAIT_MS, in milliseconds (log 9) -/
  waitMs : Nat
  /-- RAW -/
  raw : BitVec 16
  /-- LUX -/
  lux : Word
  deriving DecidableEq, Repr

/-- The transients before the first line; every line that reads one follows the line that writes it (log 16). -/
def blankTransient : Transient where
  startFailed := false
  m := 0
  waitMs := 0
  raw := 0
  lux := 0

/-- SEQ (10_state.md R32): IDLE, or BUSY with the accepted operation, the number of its port transactions and
register writes that are done, which is the index of its next one, and the transients it holds (R30). -/
inductive Seq where
  | idle
  | busy (op : Instr) (step : Nat) (tmp : Transient)
  deriving DecidableEq, Repr

/-- What the outside world will do, each list in order: the request words the host presents (20_memory.md R64;
the head stands at the request port), for how many steps it leaves each response pending (R64), and the draws of
R65 and R243: the answers to the next BusStarts, BusWrites and BusReads, and by how many milliseconds the next
Sleeps overrun. -/
structure Env where
  requests : List Word
  starts : List StartAnswer
  writes : List WriteAnswer
  reads : List ReadAnswer
  lateness : List Nat
  delays : List Nat
  deriving DecidableEq, Repr

/-- How much of an operation a step covers when a request is accepted; the model's own, written by no step (log 4). -/
inductive Grain where
  /-- the step accepts the request: SEQ goes from IDLE to BUSY, and each later step runs one line -/
  | line
  /-- the step runs the operation whole, from acceptance to its response -/
  | operation
  deriving DecidableEq, Repr

/-- The state of the block. -/
structure State where
  /-- configuration, fixed for the block's lifetime (R31; log 1) -/
  cfg : Config
  /-- INITED, STATUS[0] (R22) -/
  inited : Bool
  /-- BUS_START_FAIL, STATUS[1] (R22) -/
  busStartFail : Bool
  /-- ADDR (R23) -/
  addr : Addr
  /-- SENS (R24) -/
  sens : Code
  /-- MTREG (R25) -/
  mtreg : Byte
  /-- ACC (R26) -/
  acc : Code
  /-- MODE (R27) -/
  mode : Byte
  /-- RES (R28) -/
  res : BitVec 3
  /-- SEQ (R32) -/
  seq : Seq
  /-- RSP_STATUS and RSP_DATA; none while no response is pending (R33) -/
  rsp : Option Response
  /-- the command byte on the bus port that is not yet transmitted (log 5) -/
  wire : Option Byte
  /-- inputs (log 2, log 6) -/
  env : Env
  /-- the step size of an accepted request (log 4) -/
  grain : Grain
  /-- every port transaction so far, oldest first (70_reset_and_hazards.md R233; log 13) -/
  trace : List Transaction
  /-- every response the host has taken, oldest first (R233; log 13) -/
  responses : List Response
  deriving DecidableEq, Repr

/-- Why the machine stops. -/
inductive Fault where
  /-- Raised by `advance` (a step of a BUSY state) when the step index is past the last line of the operation's
  pseudocode, or the operation is no request. 10_state.md R32 gives SEQ no such value and no run reaches it.
  Safe: nothing is claimed of such a state (log 15). -/
  | sequencerPastEnd
  deriving DecidableEq, Repr

/-- Why a step has no meaning. -/
inductive Refusal where
  /-- Raised by an arm of `exec` whose instruction has no meaning yet; no arm is one now. Safe. -/
  | notModelled (mnemonic : String)
  deriving DecidableEq, Repr

/-- The block after power-on reset (10_state.md R38, 70_reset_and_hazards.md R230), with the default parameters,
no input waiting and nothing shown yet. ADDR, SENS, MTREG, ACC, MODE and RES are unspecified there: zero is a
DESIGN CHOICE (log 3). -/
def State.reset : State where
  cfg := defaultConfig
  inited := false
  busStartFail := false
  addr := 0
  sens := 0
  mtreg := 0
  acc := 0
  mode := 0
  res := 0
  seq := .idle
  rsp := none
  wire := none
  env := ⟨[], [], [], [], [], []⟩
  grain := .line
  trace := []
  responses := []

end Sys2Proof.Machine
end

