-- ==== Sys2Proof/Machine/Operands.lean ====
section
/-!
DEFINITION. The pure functions of the block: the checks on operands, the mode register encoder, the MTreg
clamp-and-derive unit, the MTreg half encoder, the wait and the raw-to-lux multiplier. The constants are those of
00_scope.md R6.
-/

namespace Sys2Proof.Machine

/-! ## Constants (00_scope.md R6) -/

def mtregDefault : Nat := 69
def mtregMin : Nat := 31
def mtregMax : Nat := 254
def sensLowSub : Code := 450
def sensHighSub : Code := 3680
def sensDefault : Code := 1000
def accMin : Code := 960
def accMax : Code := 1440
def accDefault : Code := 1200
def resDefault : BitVec 16 := 1
def baseTimeLow : Nat := 16
def baseTimeHigh : Nat := 120
def scale : Nat := 1000

/-- Power Down, Power On and Reset of 30_encoding.md R77. -/
def cmdPowerDown : Byte := 0x00
def cmdPowerOn : Byte := 0x01
def cmdReset : Byte := 0x07

/-! ## Operand checks -/

/-- INIT's address check, on the whole 16-bit operand (40_construction.md R100). -/
def addrLegal (a : BitVec 16) : Bool := decide (a = 0x23 ∨ a = 0x5C)

/-- SET_RES's index check, on the whole 16-bit operand (41_mode.md R124, R127). -/
def resLegal (r : BitVec 16) : Bool := decide (1 ≤ r.toNat ∧ r.toNat ≤ 6)

/-! ## Mode register encoder -/

/-- The mode list ROM, rows 1 to 6 (10_state.md R29, 30_encoding.md R78). -/
def modeRom : List Byte := [0x20, 0x21, 0x23, 0x10, 0x11, 0x13]

/-- MODE_LIST[r], for the 1-based index r; none outside 1..6 (30_encoding.md R78). -/
def modeList (r : Nat) : Option Byte :=
  match r with
  | 0 => none
  | k + 1 => modeRom[k]?

/-- The wait class: low-resolution exactly when m[1:0] = 0b11 (30_encoding.md R79). -/
def isLowRes (m : Byte) : Bool := decide (m.extractLsb' 0 2 = 0b11)

/-! ## MTreg clamp-and-derive unit -/

/-- RoundTie(p, d), for d > 0 (42_calibration.md R141). -/
def roundTie (tie : TieRule) (p d : Nat) : Nat :=
  let q := p / d
  let r := p % d
  if d < 2 * r then q + 1
  else if 2 * r < d then q
  else match tie with
    | .halfEven => q + q % 2
    | .halfUp => q + 1

/-- SensClamp(f): the sensitivity to store and the MTreg (42_calibration.md R140). -/
def sensClamp (tie : TieRule) (f : Code) : Code × Byte :=
  let p := f.toNat * mtregDefault
  if p < scale * mtregMin then (sensLowSub, BitVec.ofNat 8 mtregMin)
  else if scale * mtregMax < p then (sensHighSub, BitVec.ofNat 8 mtregMax)
  else (f, BitVec.ofNat 8 (roundTie tie p scale))

/-- AccClamp(a) (42_calibration.md R146). -/
def accClamp (a : Code) : Code :=
  if a < accMin then accMin
  else if accMax < a then accMax
  else a

/-- The command byte of the MTreg high half (30_encoding.md R80). -/
def mtregHighByte (mt : Byte) : Byte := 0x40 ||| (mt.extractLsb' 5 3).setWidth 8

/-- The command byte of the MTreg low half, bits 4:0 only (30_encoding.md R80, 90_conflicts.md C3). -/
def mtregLowByte (mt : Byte) : Byte := 0x60 ||| (mt.extractLsb' 0 5).setWidth 8

/-! ## Measurement -/

/-- BaseTime(m) in milliseconds (43_measurement.md R170). -/
def baseTime (m : Byte) : Nat := if isLowRes m then baseTimeLow else baseTimeHigh

/-- WaitMs(m), the floor of the exact product (43_measurement.md R171). -/
def waitTime (m : Byte) (sens : Code) : Nat := baseTime m * sens.toNat / scale

/-- The raw count of a read, by RAW_BYTE_ORDER (20_memory.md R55). -/
def rawCount (order : ByteOrder) (b0 b1 : Byte) : BitVec 16 :=
  let high := match order with | .highFirst => b0 | .lowFirst => b1
  let low := match order with | .highFirst => b1 | .lowFirst => b0
  BitVec.ofNat 16 (low.toNat + 256 * high.toNat)

/-- k: 2 for the two 0.5 lx indices, else 1 (43_measurement.md R175, R176). -/
def halfFactor (res : BitVec 3) : Nat := if res = 2 ∨ res = 5 then 2 else 1

/-- den of 43_measurement.md R175. -/
def luxDivisor (acc sens : Code) (res : BitVec 3) : Nat := acc.toNat * sens.toNat * halfFactor res

/-- The floored quotient of 43_measurement.md R175, before it is put in a word. -/
def luxQuotient (raw : BitVec 16) (acc sens : Code) (res : BitVec 3) : Nat :=
  raw.toNat * 1000000000 / luxDivisor acc sens res

/-- ConvertLux(raw) in milli-lux (43_measurement.md R175). Where the divisor is 0 or the quotient does not fit
LUX_W = 32 bits, which no calibrated state gives (R175, R177), the spec states no value: a free value (log 8). -/
def convertLux (raw : BitVec 16) (acc sens : Code) (res : BitVec 3) : Word :=
  if luxDivisor acc sens res ≠ 0 ∧ luxQuotient raw acc sens res < 2 ^ 32 then
    BitVec.ofNat 32 (luxQuotient raw acc sens res)
  else Config.freeLux raw acc sens res

end Sys2Proof.Machine
end

