-- ==== Sys2Proof/Machine/Flags.lean ====
section
/-!
DEFINITION. The status bits and the status codes. The block has no condition flags (10_state.md R34): its only
status bits are INITED and BUS_START_FAIL (R22), and an error is a code in RSP_STATUS (60_exceptions.md R201).
-/

namespace Sys2Proof.Machine

/-- STATUS as GET_STATUS returns it: `{30'b0, BUS_START_FAIL, INITED}` (10_state.md R22, 40_construction.md R110). -/
def statusWord (s : State) : Word :=
  (BitVec.ofBool s.busStartFail ++ BitVec.ofBool s.inited).setWidth 32

/-- The 4-bit code of a status (60_exceptions.md R201). -/
def Status.code : Status → BitVec 4
  | .ok => 0
  | .errInvalidAddress => 1
  | .errInvalidResolution => 2
  | .errBus => 3
  | .errNotInitialised => 4
  | .errIllegalRequest => 5

end Sys2Proof.Machine
end

