-- ==== Sys2Proof/Machine/Ops.lean ====
section
/-!
DEFINITION. The shared operations: the port primitives (20_memory.md R51 to R54), `respond` and `raise`
(00_scope.md R13, 60_exceptions.md R205), the lines of the sequencer's pseudocode (10_state.md R32) and how they
run, the transmission of a command byte, the host's side of the handshake, and power-on reset.
-/

namespace Sys2Proof.Machine

/-! ## Port primitives

The answer to a transaction is the head of its input list; past the end of the list it is a free value, applied to
the number of transactions issued so far, so that each is fresh (log 2). -/

/-- The bus's answer to the next BusStart. -/
def nextStart (s : State) : StartAnswer := s.env.starts.headD (Config.freeStart s.trace.length)

/-- The bus's answer to the next BusWrite. -/
def nextWrite (s : State) : WriteAnswer := s.env.writes.headD (Config.freeWrite s.trace.length)

/-- The bus's answer to the next BusRead. -/
def nextRead (s : State) : ReadAnswer := s.env.reads.headD (Config.freeRead s.trace.length)

/-- By how many milliseconds the next Sleep overruns. -/
def nextLateness (s : State) : Nat := s.env.lateness.headD (Config.freeLateness s.trace.length)

/-- For how many more steps the host leaves the response pending; past the end of the list a free value, applied to
the number of responses taken so far (20_memory.md R64; log 6). -/
def nextDelay (s : State) : Nat := s.env.delays.headD (Config.freeDelay s.responses.length)

/-- BusStart(ADDR, BUS_CLK_HZ), issued and answered by `nextStart` (20_memory.md R51). -/
def busStart (s : State) : State :=
  { s with
    trace := s.trace ++ [.start s.addr s.cfg.busClkHz (nextStart s)]
    env := { s.env with starts := s.env.starts.tail } }

/-- BusWrite(b) to the device at ADDR, issued and answered by `nextWrite` (20_memory.md R52, R58). -/
def busWrite (b : Byte) (s : State) : State :=
  { s with
    trace := s.trace ++ [.write s.addr b (nextWrite s)]
    env := { s.env with writes := s.env.writes.tail } }

/-- BusRead(2) from the device at ADDR, issued and answered by `nextRead` (20_memory.md R53, R58). -/
def busRead (s : State) : State :=
  { s with
    trace := s.trace ++ [.read s.addr (nextRead s)]
    env := { s.env with reads := s.env.reads.tail } }

/-- Sleep(ms), which returns after at least ms milliseconds (20_memory.md R54, 70_reset_and_hazards.md R243). -/
def sleep (ms : Nat) (s : State) : State :=
  { s with
    trace := s.trace ++ [.sleep ms (ms + nextLateness s)]
    env := { s.env with lateness := s.env.lateness.tail } }

/-! ## Outcomes of an operation -/

/-- `respond(status, data)`: ends the operation (00_scope.md R13). -/
def respond (st : Status) (data : Word) (s : State) : State :=
  { s with seq := .idle, rsp := some ⟨st, data⟩ }

/-- Error entry, the one way an operation ends in an error: `respond(code(E), 0)`, nothing else saved or changed
(60_exceptions.md R205). -/
def raiseError (e : Status) (s : State) : State := respond e 0 s

/-! ## Lines of pseudocode -/

/-- Where the byte of a line comes from: a constant or the operand, the latched `m`, or a half of MTREG. -/
inductive ByteSource where
  | const (b : Byte)
  | latched
  | mtregHigh
  | mtregLow
  deriving DecidableEq, Repr

/-- Where the data word of a response comes from. -/
inductive DataSource where
  | zero
  | status
  | sens
  | acc
  | res
  | lux
  deriving DecidableEq, Repr

/-- One line of an operation's pseudocode that SEQ counts: a port transaction or a register write; or the `respond`
that ends it (10_state.md R32). A transient is assigned with the transaction it belongs to (log 10). -/
inductive Line where
  /-- INITED <- b -/
  | writeInited (b : Bool)
  /-- ADDR <- a -/
  | writeAddr (a : Addr)
  /-- st <- BusStart(ADDR, BUS_CLK_HZ) -/
  | busStart
  /-- BUS_START_FAIL <- (st == PeripheralError) ? 1 : 0 -/
  | recordStart
  /-- BusWrite(byte) -/
  | busWrite (src : ByteSource)
  /-- MODE <- byte -/
  | writeMode (src : ByteSource)
  /-- SENS <- s, with (s, mt) = SensClamp(f) -/
  | writeSens (f : Code)
  /-- MTREG <- mt, with (s, mt) = SensClamp(f) -/
  | writeMtreg (f : Code)
  /-- ACC <- AccClamp(a) -/
  | writeAcc (a : Code)
  /-- RES <- r -/
  | writeRes (r : BitVec 3)
  /-- WAIT_MS <- WaitMs(m); Sleep(WAIT_MS) -/
  | sleep
  /-- (b0, b1) <- BusRead(2); RAW <- low + 256 * high; LUX <- ConvertLux(RAW) -/
  | busRead
  /-- respond(status, data) -/
  | respond (st : Status) (src : DataSource)
  deriving DecidableEq, Repr

/-- The byte a line names. -/
def byteOf (src : ByteSource) (t : Transient) (s : State) : Byte :=
  match src with
  | .const b => b
  | .latched => t.m
  | .mtregHigh => mtregHighByte s.mtreg
  | .mtregLow => mtregLowByte s.mtreg

/-- The data word a `respond` names; registers are zero-extended (42_calibration.md R145, R149, 41_mode.md R128). -/
def dataOf (src : DataSource) (t : Transient) (s : State) : Word :=
  match src with
  | .zero => 0
  | .status => statusWord s
  | .sens => s.sens.setWidth 32
  | .acc => s.acc.setWidth 32
  | .res => s.res.setWidth 32
  | .lux => t.lux

/-- WAIT_MS <- WaitMs(m) (43_measurement.md R172). -/
def assignWait (t : Transient) (s : State) : Transient := { t with waitMs := waitTime t.m s.sens }

/-- RAW <- low + 256 * high (43_measurement.md R174), then LUX <- ConvertLux(RAW) (R178). -/
def assignLux (b0 b1 : Byte) (t : Transient) (s : State) : Transient :=
  let raw := rawCount s.cfg.rawByteOrder b0 b1
  { t with raw := raw, lux := convertLux raw s.acc s.sens s.res }

/-- What a line leads to: the operation goes on, or it has ended. -/
inductive Ran where
  | goesOn (t : Transient) (s : State)
  | ended (s : State)
  deriving DecidableEq, Repr

/-- One line, run whole. A BusError ends the operation at once (60_exceptions.md R205). -/
def runLine (l : Line) (t : Transient) (s : State) : Ran :=
  match l with
  | .writeInited b => .goesOn t { s with inited := b }
  | .writeAddr a => .goesOn t { s with addr := a }
  | .busStart => .goesOn { t with startFailed := decide (nextStart s = .peripheralError) } (busStart s)
  | .recordStart => .goesOn t { s with busStartFail := t.startFailed }
  | .busWrite src =>
    match nextWrite s with
    | .ok => .goesOn t (busWrite (byteOf src t s) s)
    | .busError => .ended (raiseError .errBus (busWrite (byteOf src t s) s))
  | .writeMode src => .goesOn t { s with mode := byteOf src t s }
  | .writeSens f => .goesOn t { s with sens := (sensClamp s.cfg.mtregTie f).1 }
  | .writeMtreg f => .goesOn t { s with mtreg := (sensClamp s.cfg.mtregTie f).2 }
  | .writeAcc a => .goesOn t { s with acc := accClamp a }
  | .writeRes r => .goesOn t { s with res := r }
  | .sleep => .goesOn (assignWait t s) (sleep (assignWait t s).waitMs s)
  | .busRead =>
    match nextRead s with
    | .bytes b0 b1 => .goesOn (assignLux b0 b1 t s) (busRead s)
    | .busError => .ended (raiseError .errBus (busRead s))
  | .respond st src => .ended (respond st (dataOf src t s) s)

/-- Lines run in order until one ends the operation (20_memory.md R59, 60_exceptions.md R205). -/
def runLines : List Line → Transient → State → State
  | [], _, s => s
  | l :: rest, t, s =>
    match runLine l t s with
    | .goesOn t' s' => runLines rest t' s'
    | .ended s' => s'

/-- The transients at acceptance: GET_VALUE's first assignment, `m <- MODE`, is made before its first line
(43_measurement.md R178; log 10). -/
def openingTransient (i : Instr) (s : State) : Transient :=
  if i = .getValue then { blankTransient with m := s.mode } else blankTransient

/-- Acceptance of an operation: SEQ leaves IDLE (10_state.md R32, 20_memory.md R64). -/
def accepted (i : Instr) (s : State) : State := { s with seq := .busy i 0 (openingTransient i s) }

/-- A whole operation: its acceptance, then its lines to its response. -/
def runOperation (i : Instr) (lines : List Line) (s : State) : State :=
  runLines lines (openingTransient i s) (accepted i s)

/-- Check 2 of 60_exceptions.md R204: while INITED = 0 the operation only responds ERR_NOT_INITIALISED. -/
def gated (inited : Bool) (lines : List Line) : List Line :=
  if inited then lines else [.respond .errNotInitialised .zero]

/-! ## The bus port -/

/-- The command byte on the bus port is transmitted: one BusWrite (20_memory.md R52). It changes no calibration
register (70_reset_and_hazards.md R244). In an operation that is in progress its return advances SEQ by one step,
and its BusError ends the operation (10_state.md R32, 60_exceptions.md R205); with SEQ = IDLE there is no operation
to advance or to end, and its outcome stands in the trace alone (log 5). -/
def sendCommand (b : Byte) (s : State) : State :=
  match s.seq, nextWrite s with
  | .idle, _ => busWrite b s
  | .busy op k t, .ok => { busWrite b s with seq := .busy op (k + 1) t }
  | .busy _ _ _, .busError => raiseError .errBus (busWrite b s)

/-! ## The host's side -/

/-- The host takes the pending response (20_memory.md R64). -/
def takeResponse (r : Response) (s : State) : State :=
  { s with rsp := none, responses := s.responses ++ [r], env := { s.env with delays := s.env.delays.tail } }

/-- The host takes the pending response now or leaves it pending for the step, as it pleases (20_memory.md R64). -/
def holdOrTake (r : Response) (s : State) : State :=
  match nextDelay s with
  | 0 => takeResponse r s
  | n + 1 => { s with env := { s.env with delays := n :: s.env.delays.tail } }

/-- An illegal request word is answered, with no other effect (30_encoding.md R74). It names no operation that SEQ
could be busy with (log 22). -/
def answerIllegal (s : State) : State := raiseError .errIllegalRequest s

/-- Power-on reset of the block (70_reset_and_hazards.md R230), an event from outside: INITED, BUS_START_FAIL, SEQ
and the response as the spec says, a byte on the bus port dropped, and the unspecified registers at the values of
`State.reset` (log 3, log 19). -/
def powerOnReset (s : State) : State :=
  { State.reset with
    cfg := s.cfg, env := s.env, grain := s.grain, trace := s.trace, responses := s.responses }

end Sys2Proof.Machine
end

