-- ==== Sys2Proof/Machine/Calibration.lean ====
section
/-!
DEFINITION. Calibration: SET_SENS, GET_SENS, SET_ACC, GET_ACC (42_calibration.md).
-/

namespace Sys2Proof.Machine

/-- SetSensProc(f): both registers, then the high half, then the low half (42_calibration.md R142, R143). -/
def setSensProc (f : Code) : List Line := [.writeSens f, .writeMtreg f, .busWrite .mtregHigh, .busWrite .mtregLow]

/-- SetAccProc(a): no port transaction (42_calibration.md R147). -/
def setAccProc (a : Code) : List Line := [.writeAcc a]

/-- SET_SENS f (42_calibration.md R144). -/
def setSensLines (f : Code) : List Line := setSensProc f ++ [.respond .ok .zero]

/-- GET_SENS (42_calibration.md R145). -/
def getSensLines : List Line := [.respond .ok .sens]

/-- SET_ACC a (42_calibration.md R148). -/
def setAccLines (a : Code) : List Line := setAccProc a ++ [.respond .ok .zero]

/-- GET_ACC (42_calibration.md R149). -/
def getAccLines : List Line := [.respond .ok .acc]

/-- SET_SENS (42_calibration.md R144). -/
def execSetSens (f : Code) (s : State) : Host.Outcome State Fault Refusal :=
  .next (runOperation (.setSens f) (gated s.inited (setSensLines f)) s)

/-- GET_SENS (42_calibration.md R145). -/
def execGetSens (s : State) : Host.Outcome State Fault Refusal :=
  .next (runOperation .getSens (gated s.inited getSensLines) s)

/-- SET_ACC (42_calibration.md R148). -/
def execSetAcc (a : Code) (s : State) : Host.Outcome State Fault Refusal :=
  .next (runOperation (.setAcc a) (gated s.inited (setAccLines a)) s)

/-- GET_ACC (42_calibration.md R149). -/
def execGetAcc (s : State) : Host.Outcome State Fault Refusal :=
  .next (runOperation .getAcc (gated s.inited getAccLines) s)

end Sys2Proof.Machine
end

