-- ==== Sys2Proof/Machine/Mode.lean ====
section
/-!
DEFINITION. Mode management: SET_MODE, RESET, SET_RES, GET_RES (41_mode.md).
-/

namespace Sys2Proof.Machine

/-- SetModeProc(m): write, then record (41_mode.md R120). -/
def setModeProc (m : ByteSource) : List Line := [.busWrite m, .writeMode m]

/-- MODE <- b, where P_RESET_RECORDS_MODE asks for it (41_mode.md R122). -/
def recordReset (cfg : Config) (b : Byte) : List Line :=
  if cfg.resetRecordsMode then [.writeMode (.const b)] else []

/-- ResetProc(): Power On, then Reset (41_mode.md R122). -/
def resetProc (cfg : Config) : List Line :=
  [.busWrite (.const cmdPowerOn)] ++ recordReset cfg cmdPowerOn
    ++ [.busWrite (.const cmdReset)] ++ recordReset cfg cmdReset

/-- SetResProc(r), for r in 1..6 (41_mode.md R126). Its callers check r first; outside 1..6 it has no line. -/
def setResProc (cfg : Config) (r : BitVec 16) : List Line :=
  match modeList r.toNat with
  | some m =>
    (if cfg.resWritesBus then setModeProc (.const m) else [.writeMode (.const m)])
      ++ [.writeRes (r.setWidth 3)]
  | none => []

/-- SET_MODE m (41_mode.md R121). -/
def setModeLines (m : Byte) : List Line := setModeProc (.const m) ++ [.respond .ok .zero]

/-- RESET (41_mode.md R123). -/
def resetLines (cfg : Config) : List Line := resetProc cfg ++ [.respond .ok .zero]

/-- SET_RES r: validation before any write (41_mode.md R125, R127). -/
def setResLines (cfg : Config) (r : BitVec 16) : List Line :=
  if resLegal r then setResProc cfg r ++ [.respond .ok .zero]
  else [.respond .errInvalidResolution .zero]

/-- GET_RES (41_mode.md R128). -/
def getResLines : List Line := [.respond .ok .res]

/-- SET_MODE (41_mode.md R121). -/
def execSetMode (m : Byte) (s : State) : Host.Outcome State Fault Refusal :=
  .next (runOperation (.setMode m) (gated s.inited (setModeLines m)) s)

/-- RESET (41_mode.md R123). -/
def execReset (s : State) : Host.Outcome State Fault Refusal :=
  .next (runOperation .reset (gated s.inited (resetLines s.cfg)) s)

/-- SET_RES (41_mode.md R127). -/
def execSetRes (r : BitVec 16) (s : State) : Host.Outcome State Fault Refusal :=
  .next (runOperation (.setRes r) (gated s.inited (setResLines s.cfg r)) s)

/-- GET_RES (41_mode.md R128). -/
def execGetRes (s : State) : Host.Outcome State Fault Refusal :=
  .next (runOperation .getRes (gated s.inited getResLines) s)

end Sys2Proof.Machine
end

