-- ==== Sys2Proof/Machine/Construction.lean ====
section
/-!
DEFINITION. Construction: INIT, GET_STATUS (40_construction.md).
-/

namespace Sys2Proof.Machine

/-- InitProc(): the construction sequence (40_construction.md R101). -/
def initProc (cfg : Config) : List Line :=
  [.busStart, .recordStart] ++ setModeProc (.const cmdPowerDown) ++ setSensProc sensDefault
    ++ setAccProc accDefault ++ setResProc cfg resDefault

/-- INIT addr (40_construction.md R100). -/
def initLines (cfg : Config) (addr : BitVec 16) : List Line :=
  if addrLegal addr then
    [.writeInited false, .writeAddr (addr.extractLsb' 0 7)] ++ initProc cfg
      ++ [.writeInited true, .respond .ok .zero]
  else [.respond .errInvalidAddress .zero]

/-- GET_STATUS (40_construction.md R110). -/
def getStatusLines : List Line := [.respond .ok .status]

/-- INIT, accepted whether INITED is 0 or 1 (40_construction.md R100). -/
def execInit (addr : BitVec 16) (s : State) : Host.Outcome State Fault Refusal :=
  .next (runOperation (.init addr) (initLines s.cfg addr) s)

/-- GET_STATUS, accepted while INITED = 0 (40_construction.md R110). -/
def execGetStatus (s : State) : Host.Outcome State Fault Refusal :=
  .next (runOperation .getStatus getStatusLines s)

end Sys2Proof.Machine
end

