-- ==== Sys2Proof/Machine/Measurement.lean ====
section
/-!
DEFINITION. Measurement timing and lux conversion: GET_VALUE (43_measurement.md).
-/

namespace Sys2Proof.Machine

/-- WaitForResult(m): the blocking wait (43_measurement.md R172). -/
def waitForResult : List Line := [.sleep]

/-- DoMeasurement(m), m latched: reset, trigger, wait, read (43_measurement.md R174). -/
def doMeasurement (cfg : Config) : List Line :=
  resetProc cfg ++ setModeProc .latched ++ waitForResult ++ [.busRead]

/-- GET_VALUE (43_measurement.md R178); `m <- MODE` is in `openingTransient`, `LUX <- ConvertLux(raw)` in
`assignLux`. -/
def getValueLines (cfg : Config) : List Line := doMeasurement cfg ++ [.respond .ok .lux]

/-- GET_VALUE (43_measurement.md R178). -/
def execGetValue (s : State) : Host.Outcome State Fault Refusal :=
  .next (runOperation .getValue (gated s.inited (getValueLines s.cfg)) s)

end Sys2Proof.Machine
end

