-- ==== Sys2Proof/Machine/Wire.lean ====
section
/-!
DEFINITION. The command bytes (30_encoding.md R76, R77, R80): each is one BusWrite of its byte (20_memory.md R52).
What the sensor does with it is outside the block (00_scope.md R5, 30_encoding.md R81; log 5).
-/

namespace Sys2Proof.Machine

/-- Power Down (40_construction.md R101). -/
def execPowerDown (s : State) : Host.Outcome State Fault Refusal := .next (sendCommand 0x00 s)

/-- Power On (41_mode.md R122). -/
def execPowerOn (s : State) : Host.Outcome State Fault Refusal := .next (sendCommand 0x01 s)

/-- Reset, the sensor's data register (41_mode.md R122). -/
def execResetDr (s : State) : Host.Outcome State Fault Refusal := .next (sendCommand 0x07 s)

/-- Continuous High-Res 1 (43_measurement.md R174). -/
def execContHRes (s : State) : Host.Outcome State Fault Refusal := .next (sendCommand 0x10 s)

/-- Continuous High-Res 2 (43_measurement.md R174). -/
def execContHRes2 (s : State) : Host.Outcome State Fault Refusal := .next (sendCommand 0x11 s)

/-- Continuous Low-Res (43_measurement.md R174). -/
def execContLRes (s : State) : Host.Outcome State Fault Refusal := .next (sendCommand 0x13 s)

/-- One-Time High-Res 1 (43_measurement.md R174). -/
def execOneHRes (s : State) : Host.Outcome State Fault Refusal := .next (sendCommand 0x20 s)

/-- One-Time High-Res 2 (43_measurement.md R174). -/
def execOneHRes2 (s : State) : Host.Outcome State Fault Refusal := .next (sendCommand 0x21 s)

/-- One-Time Low-Res (43_measurement.md R174). -/
def execOneLRes (s : State) : Host.Outcome State Fault Refusal := .next (sendCommand 0x23 s)

/-- MTreg High half, h = MTREG[7:5] (42_calibration.md R143). -/
def execMtregHi (h : BitVec 3) (s : State) : Host.Outcome State Fault Refusal :=
  .next (sendCommand (packMtregHi h) s)

/-- MTreg Low half, l = MTREG[4:0] (42_calibration.md R143). -/
def execMtregLo (l : BitVec 5) (s : State) : Host.Outcome State Fault Refusal :=
  .next (sendCommand (packMtregLo l) s)

end Sys2Proof.Machine
end

