-- ==== Sys2Proof/Machine/Sequencer.lean ====
section
/-!
DEFINITION. The measurement timing sequencer (10_state.md R32): the fixed step list of each operation, one step of
an operation in progress, and what the block does next in a state (20_memory.md R64).
-/

namespace Sys2Proof.Machine

/-- The step list of an operation (10_state.md R32), its checks included (60_exceptions.md R204). A command byte is
no operation and has none. -/
def program (cfg : Config) (inited : Bool) (i : Instr) : List Line :=
  match i with
  | .init addr => initLines cfg addr
  | .setMode m => gated inited (setModeLines m)
  | .reset => gated inited (resetLines cfg)
  | .setSens f => gated inited (setSensLines f)
  | .getSens => gated inited getSensLines
  | .setAcc a => gated inited (setAccLines a)
  | .getAcc => gated inited getAccLines
  | .setRes r => gated inited (setResLines cfg r)
  | .getRes => gated inited getResLines
  | .getValue => gated inited (getValueLines cfg)
  | .getStatus => getStatusLines
  | .powerDown => []
  | .powerOn => []
  | .resetDr => []
  | .contHRes => []
  | .contHRes2 => []
  | .contLRes => []
  | .oneHRes => []
  | .oneHRes2 => []
  | .oneLRes => []
  | .mtregHi _ => []
  | .mtregLo _ => []

/-- One step of the operation in progress: its next line (10_state.md R32). A BusWrite line puts its byte on the bus port; the step
after transmits it (`sendCommand`), and SEQ advances when that transaction returns (10_state.md R32). -/
def advance (op : Instr) (k : Nat) (t : Transient) (s : State) : Host.Outcome State Fault Refusal :=
  match (program s.cfg s.inited op)[k]? with
  | none => .fault .sequencerPastEnd
  | some (.busWrite src) => .next { s with wire := some (byteOf src t s) }
  | some l =>
    match runLine l t s with
    | .goesOn t' s' => .next { s' with seq := .busy op (k + 1) t' }
    | .ended s' => .next s'

/-- What the next step is: an instruction to run, or a step that runs none. -/
inductive Action where
  | run (i : Instr) (s : State)
  | other (o : Host.Outcome State Fault Refusal)

/-- A byte on the bus port: its command is run; a byte outside 30_encoding.md R77 is sent all the same (R81). -/
def transmit (b : Byte) (s : State) : Action :=
  match decodeWire b with
  | .ok i => .run i s
  | .error _ => .other (.next (sendCommand b s))

/-- A request word at an idle block: its operation is accepted, and run whole where the grain says so (20_memory.md
R64; log 4); an illegal word is answered (30_encoding.md R74). -/
def accept (w : Word) (s : State) : Action :=
  match decodeRequest w with
  | .error _ => .other (.next (answerIllegal s))
  | .ok i =>
    match s.grain with
    | .line => .other (.next (accepted i s))
    | .operation => .run i s

/-- What the block does next (20_memory.md R64): a byte on the bus port is transmitted; an operation in progress
advances; a pending response is held until the host takes it; a presented request is accepted; else the block waits. -/
def nextAction (s : State) : Action :=
  match s.wire with
  | some b => transmit b { s with wire := none }
  | none =>
    match s.seq with
    | .busy op k t => .other (advance op k t s)
    | .idle =>
      match s.rsp with
      | some r => .other (.next (holdOrTake r s))
      | none =>
        match s.env.requests with
        | [] => .other (.next s)
        | w :: rest => accept w { s with env := { s.env with requests := rest } }

/-- `s` with the word `w` of `nbits` bits standing where the next step fetches: a command byte on the bus port, a
request word at the head of the request port of an idle block with no response pending, to be run whole by the next
step (log 11). -/
def placeWord (s : State) (nbits w : Nat) : State :=
  if nbits ≤ 8 then { s with wire := some (BitVec.ofNat 8 (w % 2 ^ nbits)) }
  else
    { s with
      wire := none
      seq := .idle
      rsp := none
      grain := .operation
      env := { s.env with requests := BitVec.ofNat 32 (w % 2 ^ nbits) :: s.env.requests } }

end Sys2Proof.Machine
end

