-- ==== Sys2Proof/Machine/Dispatch.lean ====
section
/-!
DEFINITION. One arm per instruction, each one call of its meaning.
-/

namespace Sys2Proof.Machine

def exec (i : Instr) (s : State) : Host.Outcome State Fault Refusal :=
  match i with
  | .init addr => Sys2Proof.Machine.execInit addr s
  | .setMode m => Sys2Proof.Machine.execSetMode m s
  | .reset => Sys2Proof.Machine.execReset s
  | .setSens f => Sys2Proof.Machine.execSetSens f s
  | .getSens => Sys2Proof.Machine.execGetSens s
  | .setAcc a => Sys2Proof.Machine.execSetAcc a s
  | .getAcc => Sys2Proof.Machine.execGetAcc s
  | .setRes r => Sys2Proof.Machine.execSetRes r s
  | .getRes => Sys2Proof.Machine.execGetRes s
  | .getValue => Sys2Proof.Machine.execGetValue s
  | .getStatus => Sys2Proof.Machine.execGetStatus s
  | .powerDown => Sys2Proof.Machine.execPowerDown s
  | .powerOn => Sys2Proof.Machine.execPowerOn s
  | .resetDr => Sys2Proof.Machine.execResetDr s
  | .contHRes => Sys2Proof.Machine.execContHRes s
  | .contHRes2 => Sys2Proof.Machine.execContHRes2 s
  | .contLRes => Sys2Proof.Machine.execContLRes s
  | .oneHRes => Sys2Proof.Machine.execOneHRes s
  | .oneHRes2 => Sys2Proof.Machine.execOneHRes2 s
  | .oneLRes => Sys2Proof.Machine.execOneLRes s
  | .mtregHi h => Sys2Proof.Machine.execMtregHi h s
  | .mtregLo l => Sys2Proof.Machine.execMtregLo l s

end Sys2Proof.Machine
end

