-- ==== Sys2Proof/Machine/Step.lean ====
section
/-!
DEFINITION. One step of the machine: what `nextAction` picks, run by `exec` where it is an instruction. From IDLE a
step accepts a request, and runs its operation whole where the grain says so; in a BUSY state it runs one line
(log 4).
-/

namespace Sys2Proof.Machine

/-- One step. -/
def step (s : State) : Host.Outcome State Fault Refusal :=
  match nextAction s with
  | .run i s' => exec i s'
  | .other o => o

/-- `s` with an instruction's bits standing where `step` fetches its next instruction (log 11). -/
def State.withFetchWord (s : State) (nbits w : Nat) : State := placeWord s nbits w

end Sys2Proof.Machine
end

