-- ==== Sys2Proof/Safety.lean ====
section
/-!
DEFINITION. What counts as a sound state of the block, in the terms the claims use.
-/

namespace Sys2Proof.Safety

open Sys2Proof.Machine

/-- ADDR is one of the two addresses, SENS, ACC and RES lie in their ranges (10_state.md R21, R23, R24, R26, R28). -/
abbrev Ranged (s : State) : Prop :=
  (s.addr = 0x23 ∨ s.addr = 0x5C)
    ∧ (450 ≤ s.sens.toNat ∧ s.sens.toNat ≤ 3681)
    ∧ (960 ≤ s.acc.toNat ∧ s.acc.toNat ≤ 1440)
    ∧ (1 ≤ s.res.toNat ∧ s.res.toNat ≤ 6)

/-- MTREG is the clamped rounding of SENS * 69 / 1000 (10_state.md R25). -/
abbrev Paired (s : State) : Prop :=
  s.mtreg.toNat = min (max (roundTie s.cfg.mtregTie (s.sens.toNat * 69) 1000) 31) 254

/-- The calibration registers hold legal values. -/
abbrev Calibrated (s : State) : Prop := Ranged s ∧ Paired s

/-- The calibration register a line writes holds what the line wrote; a line that writes none says nothing. MODE and
INITED are not asked of, since INIT writes each twice (40_construction.md R100, R101). -/
def written (s : State) : Line → Bool
  | .writeAddr a => decide (s.addr = a)
  | .writeSens f => decide (s.sens = (sensClamp s.cfg.mtregTie f).1)
  | .writeMtreg f => decide (s.mtreg = (sensClamp s.cfg.mtregTie f).2)
  | .writeAcc a => decide (s.acc = accClamp a)
  | .writeRes r => decide (s.res = r)
  | .writeInited _ => true
  | .busStart => true
  | .recordStart => true
  | .busWrite _ => true
  | .writeMode _ => true
  | .sleep => true
  | .busRead => true
  | .respond _ _ => true

/-- Every line that SEQ counts as done has been done (10_state.md R32). -/
def linesDone (s : State) : Bool :=
  match s.seq with
  | .idle => true
  | .busy op k _ => ((program s.cfg s.inited op).take k).all (written s)

/-- While an operation is in progress, a byte on the bus port is the byte of its next line (log 5). -/
def portHoldsItsByte (s : State) : Bool :=
  match s.seq, s.wire with
  | .busy op k t, some b =>
    (program s.cfg s.inited op)[k]?.any fun l =>
      match l with
      | .busWrite src => decide (b = byteOf src t s)
      | _ => false
  | .busy _ _ _, none => true
  | .idle, _ => true

/-- An INIT of a legal address is past `INITED <- 0` and not yet past `INITED <- 1` (40_construction.md R100). -/
def initPartWay (s : State) : Bool :=
  match s.seq with
  | .idle => false
  | .busy (.init addr) k _ =>
    addrLegal addr && decide (0 < k) && !((initLines s.cfg addr).take k).contains (.writeInited true)
  | .busy _ _ _ => false

/-- A SET_SENS is past `SENS <- s` and not yet past `MTREG <- mt` (42_calibration.md R143). -/
def sensPartWay (s : State) : Bool :=
  match s.seq with
  | .idle => false
  | .busy (.setSens _) k _ => decide (k = 1)
  | .busy _ _ _ => false

/-- The invariant of the block: INITED = 1 means that the calibration registers hold legal values, MTREG but for the
instant between the two writes of a SET_SENS; INITED is 0 while INIT writes the registers; and SEQ is where the
registers and the bus port say. -/
structure Sound (s : State) : Prop where
  ranged : s.inited = true → Ranged s
  paired : s.inited = true → sensPartWay s = false → Paired s
  notInited : initPartWay s = true → s.inited = false
  done : linesDone s = true
  port : portHoldsItsByte s = true

/-- The state an outcome goes on in, if it goes on. -/
def goesTo : Host.Outcome State Fault Refusal → Option State
  | .next s => some s
  | .fault _ => none
  | .refused _ => none

/-- SEQ = IDLE, no response pending and no byte on the bus port: the block can accept a request
(20_memory.md R64). -/
abbrev Ready (s : State) : Prop := s.wire = none ∧ s.seq = .idle ∧ s.rsp = none

/-- The transactions `t` shows beyond those of `s`. -/
def newTransactions (s t : State) : List Transaction := t.trace.drop s.trace.length

/-- A transaction with what the collaborator answered left out: what the block asked. -/
def asked : Transaction → Transaction
  | .start a hz _ => .start a hz .ok
  | .write a b _ => .write a b .ok
  | .read a _ => .read a .busError
  | .sleep ms _ => .sleep ms ms

/-- The transaction raised BusError. BusStart never raises (20_memory.md R51), Sleep never fails (R54). -/
def raised : Transaction → Bool
  | .start _ _ _ => false
  | .write _ _ answer => decide (answer = .busError)
  | .read _ answer => decide (answer = .busError)
  | .sleep _ _ => false

/-- The wire trace of each operation when nothing raises, answers left out: 40_construction.md R102,
43_measurement.md R179, and the pseudocode of the other operations. -/
def fullTrace (s : State) : Instr → List Transaction
  | .init addr =>
    if addr = 0x23 ∨ addr = 0x5C then
      [.start (addr.setWidth 7) s.cfg.busClkHz .ok, .write (addr.setWidth 7) 0x00 .ok,
        .write (addr.setWidth 7) 0x42 .ok, .write (addr.setWidth 7) 0x65 .ok]
        ++ (if s.cfg.resWritesBus then [.write (addr.setWidth 7) 0x20 .ok] else [])
    else []
  | .setMode m => if s.inited then [.write s.addr m .ok] else []
  | .reset => if s.inited then [.write s.addr 0x01 .ok, .write s.addr 0x07 .ok] else []
  | .setSens f =>
    if s.inited then
      [.write s.addr (mtregHighByte (sensClamp s.cfg.mtregTie f).2) .ok,
        .write s.addr (mtregLowByte (sensClamp s.cfg.mtregTie f).2) .ok]
    else []
  | .setRes r =>
    if s.inited ∧ s.cfg.resWritesBus then (modeList r.toNat).toList.map (fun m => .write s.addr m .ok) else []
  | .getValue =>
    if s.inited then
      [.write s.addr 0x01 .ok, .write s.addr 0x07 .ok, .write s.addr s.mode .ok,
        .sleep (waitTime s.mode s.sens) (waitTime s.mode s.sens), .read s.addr .busError]
    else []
  | .powerDown => [.write s.addr 0x00 .ok]
  | .powerOn => [.write s.addr 0x01 .ok]
  | .resetDr => [.write s.addr 0x07 .ok]
  | .contHRes => [.write s.addr 0x10 .ok]
  | .contHRes2 => [.write s.addr 0x11 .ok]
  | .contLRes => [.write s.addr 0x13 .ok]
  | .oneHRes => [.write s.addr 0x20 .ok]
  | .oneHRes2 => [.write s.addr 0x21 .ok]
  | .oneLRes => [.write s.addr 0x23 .ok]
  | .mtregHi h => [.write s.addr (packMtregHi h) .ok]
  | .mtregLo l => [.write s.addr (packMtregLo l) .ok]
  | .getSens => []
  | .setAcc _ => []
  | .getAcc => []
  | .getRes => []
  | .getStatus => []

/-- Which status codes an operation can report (60_exceptions.md R203, without ERR_ILLEGAL_REQUEST, which no legal
word reports). -/
def mayReport (cfg : Config) : Instr → Status → Bool
  | _, .ok => true
  | .init _, .errInvalidAddress => true
  | .init _, .errBus => true
  | .getStatus, .errNotInitialised => false
  | .init _, .errNotInitialised => false
  | _, .errNotInitialised => true
  | .setRes _, .errInvalidResolution => true
  | .setRes _, .errBus => cfg.resWritesBus
  | .setMode _, .errBus => true
  | .reset, .errBus => true
  | .setSens _, .errBus => true
  | .getValue, .errBus => true
  | _, _ => false

end Sys2Proof.Safety
end

