-- ==== Sys2Proof/Certificates/Slice0/Obligations.lean ====
section
/-!
DEFINITION. The statements for the provers, from the numbered rules of spec/. In a result statement the bus's answers
are read off the head of the input lists (log 2); the record after `.next` states the frame too: what it does not
name is unchanged.
-/

open Sys2Proof Sys2Proof.Machine Sys2Proof.Safety

/-! ## Encoding -/

/-- Every instruction, at every operand, decodes from its own words (30_encoding.md section 1 and 2). -/
def Obligations.DecodeOfEncodeIsTheInstruction : Prop :=
  ∀ i : Instr, decode (encode i) = .ok i

/-- Whatever decodes, decodes from the words of exactly that instruction: no word has two meanings and no bit of a
decoded word is ignored. -/
def Obligations.EncodeOfDecodeIsTheWord : Prop :=
  ∀ (p : PortWord) (i : Instr), decode p = .ok i → encode i = p

/-- 30_encoding.md R75: the match and mask of each operation, in the rule's order; a word that matches no row is
illegal, no word matches two rows, and a decoded word matches its operation's row. -/
def Obligations.MatchAndMaskSelectTheOperation : Prop :=
  let rows : List (Word × Word) :=
    [(0x00000000, 0xFFFF0000), (0x10000000, 0xFFFFFF00), (0x20000000, 0xFFFFFFFF), (0x30000000, 0xFFFF0000),
      (0x40000000, 0xFFFFFFFF), (0x50000000, 0xFFFF0000), (0x60000000, 0xFFFFFFFF), (0x70000000, 0xFFFF0000),
      (0x80000000, 0xFFFFFFFF), (0x90000000, 0xFFFFFFFF), (0xA0000000, 0xFFFFFFFF)]
  (∀ (imm : BitVec 16) (m : Byte),
      [Instr.init imm, .setMode m, .reset, .setSens imm, .getSens, .setAcc imm, .getAcc, .setRes imm, .getRes,
        .getValue, .getStatus].map Instr.row = rows.map (fun r => .req r.1 r.2))
    ∧ (∀ w : Word, (legalRequest w = true ↔ ∃ r ∈ rows, w &&& r.2 = r.1)
        ∧ (legalRequest w = true ↔ ∃ i, decodeRequest w = .ok i))
    ∧ (∀ w : Word, ∀ r ∈ rows, ∀ r' ∈ rows, w &&& r.2 = r.1 → w &&& r'.2 = r'.1 → r = r')
    ∧ (∀ (w : Word) (i : Instr), decodeRequest w = .ok i → i.row.selects (.req w) = true)

/-- Words written out from the encodings of 30_encoding.md decode to what they stand for (95_test_vectors.md 2.1). -/
def Obligations.SampleWordsDecode : Prop :=
  decode (.req 0x0000015C) = .ok (.init 0x15C) ∧ decode (.req 0x100000FF) = .ok (.setMode 0xFF)
    ∧ decode (.req 0x300007D0) = .ok (.setSens 2000) ∧ decode (.req 0x70000101) = .ok (.setRes 257)
    ∧ decode (.req 0x90000000) = .ok .getValue ∧ decode (.req 0xA0008000) = .error .operandBits
    ∧ decode (.wire 0x23) = .ok .oneLRes ∧ decode (.wire 0x42) = .ok (.mtregHi 2)
    ∧ decode (.wire 0x65) = .ok (.mtregLo 5)

/-- Which words are illegal, that each is answered ERR_ILLEGAL_REQUEST with no other effect, and that an operand out of
range is no illegal encoding (30_encoding.md section 1). That the answer takes one step, with SEQ IDLE throughout, is
the model's inference (log 22). -/
def Obligations.IllegalRequestsAreExactlyTheseAndChangeNothing : Prop :=
  (∀ w : Word, (∃ e, decodeRequest w = .error e)
      ↔ 0xB ≤ (w.extractLsb' 28 4).toNat ∨ w.extractLsb' 16 12 ≠ 0
        ∨ (w.extractLsb' 28 4 = 0x1 ∧ w.extractLsb' 8 8 ≠ 0)
        ∨ (w.extractLsb' 28 4 ∈ [(0x2 : BitVec 4), 0x4, 0x6, 0x8, 0x9, 0xA] ∧ w.extractLsb' 0 16 ≠ 0))
    ∧ (∀ (s : State) (w : Word) (rest : List Word) (e : DecodeError), Ready s → s.env.requests = w :: rest →
        decodeRequest w = .error e →
        step s = .next { s with
          env := { s.env with requests := rest }, rsp := some ⟨.errIllegalRequest, 0⟩ })
    ∧ (∀ imm : BitVec 16, decodeRequest (packRequest 0x0 imm) = .ok (.init imm)
        ∧ decodeRequest (packRequest 0x7 imm) = .ok (.setRes imm)
        ∧ decodeRequest (packRequest 0x3 imm) = .ok (.setSens imm)
        ∧ decodeRequest (packRequest 0x5 imm) = .ok (.setAcc imm))
    ∧ (∀ (s : State) (imm : BitVec 16), imm ≠ 0x23 → imm ≠ 0x5C →
        ∃ t, exec (.init imm) s = .next t ∧ t.rsp = some ⟨.errInvalidAddress, 0⟩)
    ∧ (∀ (s : State) (imm : BitVec 16), s.inited = true → imm.toNat < 1 ∨ 6 < imm.toNat →
        ∃ t, exec (.setRes imm) s = .next t ∧ t.rsp = some ⟨.errInvalidResolution, 0⟩)

/-- 30_encoding.md R82, on the tokens of log 18: an accepted line assembles to a word that decodes to its instruction;
a plain number is the imm under its op; the defaults are those of the table; an operand that does not fit, is not
asked for or is missing is rejected; a decimal of at most three fraction digits is its milli-unit code. -/
def Obligations.AssemblerGivesDecodableWords : Prop :=
  (∀ (l : AsmLine) (i : Instr), l.toInstr = some i → ∃ p, assemble l = some p ∧ decode p = .ok i)
    ∧ (∀ l : AsmLine, l.wellFormed = true ↔ assemble l ≠ none)
    ∧ (∀ n, n < 65536 →
        assemble ⟨.init, .num n⟩ = some (.req (BitVec.ofNat 32 n))
          ∧ assemble ⟨.setSens, .num n⟩ = some (.req (BitVec.ofNat 32 (0x30000000 + n)))
          ∧ assemble ⟨.setAcc, .num n⟩ = some (.req (BitVec.ofNat 32 (0x50000000 + n)))
          ∧ assemble ⟨.setRes, .num n⟩ = some (.req (BitVec.ofNat 32 (0x70000000 + n))))
    ∧ (∀ n, n < 256 → assemble ⟨.setMode, .num n⟩ = some (.req (BitVec.ofNat 32 (0x10000000 + n))))
    ∧ assemble ⟨.init, .absent⟩ = some (.req 0x00000023)
    ∧ assemble ⟨.setSens, .absent⟩ = some (.req 0x300003E8)
    ∧ assemble ⟨.setAcc, .absent⟩ = some (.req 0x500004B0)
    ∧ (∀ n, 65536 ≤ n → assemble ⟨.init, .num n⟩ = none ∧ assemble ⟨.setSens, .num n⟩ = none
        ∧ assemble ⟨.setAcc, .num n⟩ = none ∧ assemble ⟨.setRes, .num n⟩ = none)
    ∧ (∀ n, 256 ≤ n → assemble ⟨.setMode, .num n⟩ = none)
    ∧ assemble ⟨.setMode, .absent⟩ = none ∧ assemble ⟨.setRes, .absent⟩ = none
    ∧ (∀ (op : AsmOp) (w : Word),
        (op, w) ∈ ([(.reset, 0x20000000), (.getSens, 0x40000000), (.getAcc, 0x60000000), (.getRes, 0x80000000),
          (.getValue, 0x90000000), (.getStatus, 0xA0000000)] : List (AsmOp × Word)) →
        assemble ⟨op, .absent⟩ = some (.req w) ∧ (∀ o, o ≠ .absent → assemble ⟨op, o⟩ = none))
    ∧ (∀ op plain : AsmOp, (op, plain) ∈ [(AsmOp.setSensF, AsmOp.setSens), (.setAccF, .setAcc)] →
        assemble ⟨op, .absent⟩ = none
          ∧ (∀ (w : Nat) (a b c d : Fin 10) (more : List (Fin 10)),
            assemble ⟨op, .decimal w []⟩ = assemble ⟨plain, .num (1000 * w)⟩
              ∧ assemble ⟨op, .decimal w [a]⟩ = assemble ⟨plain, .num (1000 * w + 100 * a.val)⟩
              ∧ assemble ⟨op, .decimal w [a, b]⟩ = assemble ⟨plain, .num (1000 * w + 100 * a.val + 10 * b.val)⟩
              ∧ assemble ⟨op, .decimal w [a, b, c]⟩
                = assemble ⟨plain, .num (1000 * w + 100 * a.val + 10 * b.val + c.val)⟩
              ∧ assemble ⟨op, .decimal w (a :: b :: c :: d :: more)⟩ = none))

/-! ## Steps -/

/-- A ready block with a legal word at the request port takes the word and runs exactly the decoded operation
(20_memory.md R64). Line by line, the step accepts it: SEQ goes from IDLE to BUSY at the operation's first line, and
some number of steps later the state is that of exec; or the one step is exec. Which of the two is log 4. -/
def Obligations.StepRunsTheAcceptedOperation : Prop :=
  ∀ (s : State) (w : Word) (rest : List Word) (i : Instr),
    Ready s → s.env.requests = w :: rest → decode (.req w) = .ok i →
      let taken : State := { s with env := { s.env with requests := rest } }
      (s.grain = .line →
          step s = .next { taken with seq := .busy i 0 (openingTransient i taken) }
            ∧ ∃ n, core.run n s = exec i taken)
        ∧ (s.grain = .operation → step s = exec i taken)

/-- A byte on the bus port that names a command runs exactly that command, the byte taken from the port (log 5). -/
def Obligations.StepRunsTheCommandOnTheBusPort : Prop :=
  ∀ (s : State) (b : Byte) (i : Instr),
    s.wire = some b → decode (.wire b) = .ok i → step s = exec i { s with wire := none }

/-- Any byte at all on the bus port of an idle block is sent, known to 30_encoding.md R77 or not: one BusWrite at
ADDR, nothing else changed (log 5). -/
def Obligations.AnyByteOnTheBusPortIsSent : Prop :=
  ∀ (s : State) (b : Byte) (a : WriteAnswer) (rest : List WriteAnswer),
    s.wire = some b → s.seq = .idle → s.env.writes = a :: rest →
      step s = .next { s with
        wire := none, trace := s.trace ++ [.write s.addr b a], env := { s.env with writes := rest } }

/-- An idle block holds its pending response, unchanged, until the host takes it, at once or any number of steps later,
and accepts nothing before (20_memory.md R64; the number is the host's, log 6); with nothing pending and nothing
requested it waits (log 7). -/
def Obligations.IdleBlockGivesItsResponseOrWaits : Prop :=
  (∀ (s : State) (r : Response), s.wire = none → s.seq = .idle → s.rsp = some r →
      core.run (nextDelay s + 1) s = .next { s with
          rsp := none, responses := s.responses ++ [r], env := { s.env with delays := s.env.delays.tail } }
        ∧ (∀ k, k ≤ nextDelay s → ∃ delays, core.run k s = .next { s with env := { s.env with delays := delays } })
        ∧ (∀ n rest, s.env.delays = n :: rest → nextDelay s = n))
    ∧ (∀ s : State, Ready s → s.env.requests = [] → step s = .next s)

/-- While the block is busy, or a response is pending, the requests wait at the port: none is lost, none accepted
(20_memory.md section 5). -/
def Obligations.RequestsAreHeldWhileBusyOrPending : Prop :=
  ∀ s t : State, s.seq ≠ .idle ∨ s.rsp ≠ none → step s = .next t → t.env.requests = s.env.requests

/-- A request word at a ready block, legal or not, uses up that one word and leads to exactly one response, none being
pending before it, with SEQ = IDLE and the responses taken before untouched (60_exceptions.md section 3,
92_eei_decisions.md D8). How many steps it takes, one for a whole operation or one a line, is the model's choice
(log 4), and so is the bus port's field that is empty again at the end (log 5). -/
def Obligations.EachRequestGetsOneResponse : Prop :=
  ∀ (s : State) (w : Word) (rest : List Word), Ready s → s.env.requests = w :: rest →
    ∃ n t r, core.run n s = .next t ∧ t.rsp = some r ∧ t.seq = .idle ∧ t.wire = none
      ∧ t.env.requests = rest ∧ t.responses = s.responses
      ∧ (s.grain = .operation → n = 1)
      ∧ ∀ k, k < n → ∃ u : State, core.run k s = .next u ∧ u.rsp = none ∧ u.responses = s.responses

/-- Stepping an accepted operation line by line (10_state.md section 4) reaches exactly the state that running it
whole gives, and SEQ is BUSY in every state on the way: the two granularities of log 4 agree. SEQ moves by one index a
step, when a transaction returns or a register is written; it stays for the step that puts a byte on the bus port
(log 5), and becomes IDLE with the response. -/
def Obligations.LineStepsReachTheWholeOperation : Prop :=
  (∀ (i : Instr) (s t : State), i.isRequest = true → s.wire = none → exec i s = .next t →
      ∃ n, core.run n (accepted i s) = .next t
        ∧ ∀ k, k < n → ∃ u : State, core.run k (accepted i s) = .next u ∧ u.seq ≠ .idle)
    ∧ (∀ (s t : State) (op : Instr) (k : Nat) (tmp : Transient), s.seq = .busy op k tmp → step s = .next t →
        (t.seq = .busy op k tmp ∧ t.trace = s.trace ∧ s.wire = none ∧ t.wire ≠ none)
          ∨ (∃ tmp', t.seq = .busy op (k + 1) tmp'
              ∧ ((newTransactions s t).length = 1 ∨ newTransactions s t = []) ∧ t.rsp = s.rsp)
          ∨ (t.seq = .idle ∧ t.rsp ≠ none))

/-- The machine stops nowhere but on a step index past the end of an operation's lines (log 15), and refuses
nothing. -/
def Obligations.StepStopsOnlyPastTheLastLine : Prop :=
  ∀ s : State, (∀ r, step s ≠ .refused r)
    ∧ ((∃ f, step s = .fault f) ↔ s.wire = none ∧ ∃ op k t, s.seq = .busy op k t
        ∧ (program s.cfg s.inited op).length ≤ k)

/-! ## Invariants and rules over all instructions -/

/-- The invariant holds after power-on reset. -/
def Obligations.SoundAtReset : Prop := Sound State.reset

/-- Every step keeps the invariant, the steps inside an operation too: with INITED = 1 the calibration registers hold
legal values, MTREG among them as the clamped rounding of SENS * 69 / 1000 but for the instant between the two register
writes of a SET_SENS (10_state.md sections 1 and 3, 42_calibration.md section 1), and INITED is 0 while INIT writes
them (40_construction.md). -/
def Obligations.SoundIsKeptByEveryStep : Prop :=
  ∀ s t : State, Sound s → step s = .next t → Sound t

/-- 10_state.md R31: no operation writes the configuration. -/
def Obligations.ConfigurationIsNeverWritten : Prop :=
  (∀ s t : State, step s = .next t → t.cfg = s.cfg)
    ∧ (∀ (i : Instr) (s t : State), exec i s = .next t → t.cfg = s.cfg)

/-- What the block has shown is never taken back: transactions and responses are only added. -/
def Obligations.HistoryOnlyGrows : Prop :=
  ∀ s t : State, step s = .next t → s.trace <+: t.trace ∧ s.responses <+: t.responses

/-- The "written by" column of 10_state.md R21, MODE's RESET entry only under P_RESET_RECORDS_MODE. -/
def Obligations.RegistersHaveOnlyTheirWriters : Prop :=
  ∀ (i : Instr) (s t : State), exec i s = .next t → (∀ a, i ≠ .init a) →
    t.inited = s.inited ∧ t.busStartFail = s.busStartFail ∧ t.addr = s.addr
      ∧ ((∀ f, i ≠ .setSens f) → t.sens = s.sens ∧ t.mtreg = s.mtreg)
      ∧ ((∀ a, i ≠ .setAcc a) → t.acc = s.acc)
      ∧ ((∀ r, i ≠ .setRes r) → t.res = s.res)
      ∧ ((∀ m, i ≠ .setMode m) → (∀ r, i ≠ .setRes r) → i ≠ .getValue →
          (i = .reset → s.cfg.resetRecordsMode = false) → t.mode = s.mode)

/-- No instruction touches what is not its own: the requests that wait and the responses already taken (20_memory.md
section 5), nor the byte on the bus port. How requests and responses are held is log 6 and the bus port's field is
log 5, both the model's choice. -/
def Obligations.PortsAreOutOfReachOfInstructions : Prop :=
  ∀ (i : Instr) (s t : State), exec i s = .next t →
    t.wire = s.wire ∧ t.env.requests = s.env.requests ∧ t.responses = s.responses

/-- Which status an operation can report (60_exceptions.md section 1), and that an error carries no data. -/
def Obligations.OperationsReportOnlyTheirErrors : Prop :=
  ∀ (i : Instr) (s t : State), i.isRequest = true → exec i s = .next t →
    ∃ r, t.rsp = some r ∧ t.seq = .idle ∧ mayReport s.cfg i r.status = true ∧ (r.status ≠ .ok → r.data = 0)

/-- A request that fails check 2 or 3 (60_exceptions.md section 2) changes no register and issues no transaction. -/
def Obligations.RejectedOperationsChangeNothing : Prop :=
  ∀ (i : Instr) (s t : State) (st : Status) (d : Word), i.isRequest = true → exec i s = .next t →
    t.rsp = some ⟨st, d⟩ → st ∈ [Status.errNotInitialised, .errInvalidAddress, .errInvalidResolution] →
      t = { s with seq := .idle, rsp := some ⟨st, 0⟩ }

/-- Errors are precise (60_exceptions.md section 3): no transaction follows one that raised BusError, and ERR_BUS is
reported exactly when one raised. -/
def Obligations.NothingFollowsARaisedTransaction : Prop :=
  ∀ (i : Instr) (s t : State) (r : Response), i.isRequest = true → exec i s = .next t → t.rsp = some r →
    (∀ x ∈ (newTransactions s t).dropLast, raised x = false)
      ∧ (r.status = .errBus ↔ ∃ x ∈ newTransactions s t, raised x = true)

/-- An operation asks of the bus and the clock a front part of its full wire trace, in its order, and all of it when
it reports OK; every transfer targets ADDR (40_construction.md, 43_measurement.md section 3, 20_memory.md
section 4). -/
def Obligations.TracesAreFrontPartsOfTheStepList : Prop :=
  ∀ (i : Instr) (s t : State), i.isRequest = true → exec i s = .next t →
    ∃ n, (newTransactions s t).map asked = (fullTrace s i).take n
      ∧ (∀ d, t.rsp = some ⟨.ok, d⟩ → (newTransactions s t).map asked = fullTrace s i)

/-- Whatever the clock answers, no Sleep returns early (70_reset_and_hazards.md section 2). -/
def Obligations.SleepIsNeverShort : Prop :=
  ∀ (i : Instr) (s t : State) (ms elapsed : Nat), exec i s = .next t →
    .sleep ms elapsed ∈ newTransactions s t → ms ≤ elapsed

/-- A command byte outside the table of 30_encoding.md reaches the bus only as SET_MODE's operand, or as the MODE that
a GET_VALUE triggers with; and MODE comes to hold such a byte only by a SET_MODE of it (30_encoding.md section 2,
10_state.md section 3). -/
def Obligations.UnknownBytesComeFromSetModeOrTheModeItLeft : Prop :=
  (∀ (i : Instr) (s t : State) (a : Addr) (b : Byte) (x : WriteAnswer), exec i s = .next t →
      .write a b x ∈ newTransactions s t →
        knownCommand b = true ∨ i = .setMode b ∨ (i = .getValue ∧ b = s.mode))
    ∧ (∀ (i : Instr) (s t : State), exec i s = .next t →
        t.mode = s.mode ∨ knownCommand t.mode = true ∨ i = .setMode t.mode)

/-- 70_reset_and_hazards.md R230, on the power-on reset of a block in any state. -/
def Obligations.PowerOnResetLeavesABlockThatWaitsForInit : Prop :=
  ∀ s : State,
    (powerOnReset s).inited = false ∧ (powerOnReset s).busStartFail = false ∧ (powerOnReset s).seq = .idle
      ∧ (powerOnReset s).rsp = none ∧ (powerOnReset s).trace = s.trace
      ∧ (∀ i : Instr, i.isRequest = true → (∀ a, i ≠ .init a) → i ≠ .getStatus →
          exec i (powerOnReset s) = .next { powerOnReset s with rsp := some ⟨.errNotInitialised, 0⟩ })
      ∧ (s.env.requests = [] → step (powerOnReset s) = .next (powerOnReset s))
      ∧ State.reset.inited = false ∧ State.reset.busStartFail = false ∧ State.reset.seq = .idle
      ∧ State.reset.rsp = none ∧ State.reset.trace = []

/-- While INITED = 0 every operation but INIT and GET_STATUS answers ERR_NOT_INITIALISED, whatever else is wrong with
its operand, and changes nothing (60_exceptions.md section 2). -/
def Obligations.NotInitialisedComesBeforeTheOperandCheck : Prop :=
  ∀ (i : Instr) (s : State), i.isRequest = true → (∀ a, i ≠ .init a) → i ≠ .getStatus → s.inited = false →
    exec i s = .next { s with seq := .idle, rsp := some ⟨.errNotInitialised, 0⟩ }

/-! ## Construction -/

/-- 10_state.md R39: the values after a successful INIT, from any prior state, whatever the bus answered. -/
def Obligations.SuccessfulInitLeavesTheDefaults : Prop :=
  ∀ (s t : State) (addr : BitVec 16) (d : Word), exec (.init addr) s = .next t → t.rsp = some ⟨.ok, d⟩ →
    t.inited = true ∧ t.addr.toNat = addr.toNat ∧ t.sens = 1000 ∧ t.mtreg = 69 ∧ t.acc = 1200 ∧ t.mode = 0x20
      ∧ t.res = 1 ∧ t.seq = .idle
      ∧ (t.busStartFail = true ↔ ∃ a hz, .start a hz .peripheralError ∈ newTransactions s t)

/-- INIT of a legal address, whose writes the bus accepts, completes, with the wire trace of 40_construction.md
section 1: a failed bus start is recorded and does not stop it. -/
def Obligations.InitCompletes : Prop :=
  ∀ (s : State) (addr : BitVec 16) (a : StartAnswer) (starts : List StartAnswer) (writes : List WriteAnswer),
    addr = 0x23 ∨ addr = 0x5C → s.env.starts = a :: starts →
    s.env.writes = [.ok, .ok, .ok] ++ (if s.cfg.resWritesBus then [.ok] else []) ++ writes →
      exec (.init addr) s = .next { s with
        inited := true, busStartFail := decide (a = .peripheralError), addr := addr.setWidth 7,
        sens := 1000, mtreg := 69, acc := 1200, mode := 0x20, res := 1, seq := .idle, rsp := some ⟨.ok, 0⟩,
        trace := s.trace ++ [.start (addr.setWidth 7) s.cfg.busClkHz a, .write (addr.setWidth 7) 0x00 .ok,
          .write (addr.setWidth 7) 0x42 .ok, .write (addr.setWidth 7) 0x65 .ok]
          ++ (if s.cfg.resWritesBus then [.write (addr.setWidth 7) 0x20 .ok] else []),
        env := { s.env with starts := starts, writes := writes } }

/-- Where a bus write of INIT fails, what was written before stands, INITED is 0 and ERR_BUS is answered
(60_exceptions.md section 3): the four places in turn. -/
def Obligations.InitStopsAtAFailedWrite : Prop :=
  ∀ (s : State) (addr : BitVec 16) (a : StartAnswer) (starts : List StartAnswer) (writes : List WriteAnswer),
    addr = 0x23 ∨ addr = 0x5C → s.env.starts = a :: starts →
    let t : State := { s with
      inited := false, busStartFail := decide (a = .peripheralError), addr := addr.setWidth 7, seq := .idle,
      rsp := some ⟨.errBus, 0⟩, env := { s.env with starts := starts, writes := writes } }
    let began : List Transaction := s.trace ++ [.start (addr.setWidth 7) s.cfg.busClkHz a]
    (s.env.writes = .busError :: writes →
      exec (.init addr) s = .next { t with trace := began ++ [.write (addr.setWidth 7) 0x00 .busError] })
    ∧ (s.env.writes = .ok :: .busError :: writes →
      exec (.init addr) s = .next { t with
        mode := 0x00, sens := 1000, mtreg := 69,
        trace := began ++ [.write (addr.setWidth 7) 0x00 .ok, .write (addr.setWidth 7) 0x42 .busError] })
    ∧ (s.env.writes = .ok :: .ok :: .busError :: writes →
      exec (.init addr) s = .next { t with
        mode := 0x00, sens := 1000, mtreg := 69,
        trace := began ++ [.write (addr.setWidth 7) 0x00 .ok, .write (addr.setWidth 7) 0x42 .ok,
          .write (addr.setWidth 7) 0x65 .busError] })
    ∧ (s.cfg.resWritesBus = true → s.env.writes = .ok :: .ok :: .ok :: .busError :: writes →
      exec (.init addr) s = .next { t with
        mode := 0x00, sens := 1000, mtreg := 69, acc := 1200,
        trace := began ++ [.write (addr.setWidth 7) 0x00 .ok, .write (addr.setWidth 7) 0x42 .ok,
          .write (addr.setWidth 7) 0x65 .ok, .write (addr.setWidth 7) 0x20 .busError] })

/-- Any other 16-bit address is answered ERR_INVALID_ADDRESS, and INITED and every register stay as they were
(40_construction.md, INIT's corner cases). -/
def Obligations.InitRejectsOtherAddresses : Prop :=
  ∀ (s : State) (addr : BitVec 16), addr ≠ 0x23 → addr ≠ 0x5C →
    exec (.init addr) s = .next { s with seq := .idle, rsp := some ⟨.errInvalidAddress, 0⟩ }

/-- GET_STATUS answers STATUS in any state, before any INIT too: INITED in bit 0, BUS_START_FAIL in bit 1, zeros above
(40_construction.md, GET_STATUS; 10_state.md section 2). -/
def Obligations.GetStatusReadsTheStatusBits : Prop :=
  ∀ s : State, ∃ d : Word,
    exec .getStatus s = .next { s with seq := .idle, rsp := some ⟨.ok, d⟩ }
      ∧ d.toNat = s.inited.toNat + 2 * s.busStartFail.toNat

/-! ## Mode management -/

/-- SET_MODE writes its byte, whichever it is, and records it; RES stays (41_mode.md section 1). -/
def Obligations.SetModeCompletes : Prop :=
  ∀ (s : State) (m : Byte) (writes : List WriteAnswer), s.inited = true → s.env.writes = .ok :: writes →
    exec (.setMode m) s = .next { s with
      mode := m, seq := .idle, rsp := some ⟨.ok, 0⟩, trace := s.trace ++ [.write s.addr m .ok],
      env := { s.env with writes := writes } }

/-- A BusError leaves MODE unchanged and is answered ERR_BUS (41_mode.md section 1). -/
def Obligations.SetModeFailureKeepsMode : Prop :=
  ∀ (s : State) (m : Byte) (writes : List WriteAnswer), s.inited = true → s.env.writes = .busError :: writes →
    exec (.setMode m) s = .next { s with
      seq := .idle, rsp := some ⟨.errBus, 0⟩, trace := s.trace ++ [.write s.addr m .busError],
      env := { s.env with writes := writes } }

/-- Where the input list is empty the bus's answer is a free value, and SET_MODE follows it, whichever it is
(20_memory.md section 5; log 2). -/
def Obligations.UnscriptedAnswersAreFree : Prop :=
  ∀ (s : State) (m : Byte), s.inited = true → s.env.writes = [] →
    let a : WriteAnswer := Config.freeWrite s.trace.length
    exec (.setMode m) s = .next { s with
      mode := if a = .ok then m else s.mode, seq := .idle,
      rsp := some ⟨if a = .ok then .ok else .errBus, 0⟩, trace := s.trace ++ [.write s.addr m a] }

/-- RESET sends Power On, then Reset; MODE becomes 0x07 only under P_RESET_RECORDS_MODE (41_mode.md section 2). -/
def Obligations.ResetCompletes : Prop :=
  ∀ (s : State) (writes : List WriteAnswer), s.inited = true → s.env.writes = .ok :: .ok :: writes →
    exec .reset s = .next { s with
      mode := if s.cfg.resetRecordsMode then 0x07 else s.mode, seq := .idle, rsp := some ⟨.ok, 0⟩,
      trace := s.trace ++ [.write s.addr 0x01 .ok, .write s.addr 0x07 .ok],
      env := { s.env with writes := writes } }

/-- If the first write fails, the second is not issued; if the second fails, MODE is 0x01 under P_RESET_RECORDS_MODE
(41_mode.md section 2, 60_exceptions.md section 3). -/
def Obligations.ResetStopsAtAFailedWrite : Prop :=
  ∀ (s : State) (writes : List WriteAnswer), s.inited = true →
    let t : State := { s with
      seq := .idle, rsp := some ⟨.errBus, 0⟩, env := { s.env with writes := writes } }
    (s.env.writes = .busError :: writes →
      exec .reset s = .next { t with trace := s.trace ++ [.write s.addr 0x01 .busError] })
    ∧ (s.env.writes = .ok :: .busError :: writes →
      exec .reset s = .next { t with
        mode := if s.cfg.resetRecordsMode then 0x01 else s.mode,
        trace := s.trace ++ [.write s.addr 0x01 .ok, .write s.addr 0x07 .busError] })

/-- SET_RES r records r and the mode opcode of row r of the mode list, and sends that opcode only under
P_RES_WRITES_BUS (41_mode.md section 3, 30_encoding.md section 2). -/
def Obligations.SetResCompletes : Prop :=
  ∀ (s : State) (r : BitVec 16) (m : Byte) (k : BitVec 3) (writes : List WriteAnswer), s.inited = true →
    (r, m, k) ∈ ([(1, 0x20, 1), (2, 0x21, 2), (3, 0x23, 3), (4, 0x10, 4), (5, 0x11, 5), (6, 0x13, 6)]
      : List (BitVec 16 × Byte × BitVec 3)) →
    s.env.writes = (if s.cfg.resWritesBus then [.ok] else []) ++ writes →
      exec (.setRes r) s = .next { s with
        mode := m, res := k, seq := .idle, rsp := some ⟨.ok, 0⟩,
        trace := s.trace ++ (if s.cfg.resWritesBus then [.write s.addr m .ok] else []),
        env := { s.env with writes := writes } }

/-- Every index outside 1..6, of all 16 bits, is answered ERR_INVALID_RESOLUTION, and nothing changes (41_mode.md
R124, R125). -/
def Obligations.SetResRejectsOtherIndices : Prop :=
  ∀ (s : State) (r : BitVec 16), s.inited = true → r.toNat < 1 ∨ 6 < r.toNat →
    exec (.setRes r) s = .next { s with seq := .idle, rsp := some ⟨.errInvalidResolution, 0⟩ }

/-- Under P_RES_WRITES_BUS a BusError leaves RES and MODE unchanged (41_mode.md section 3). -/
def Obligations.SetResFailureKeepsModeAndRes : Prop :=
  ∀ (s : State) (r : BitVec 16) (writes : List WriteAnswer), s.inited = true → s.cfg.resWritesBus = true →
    1 ≤ r.toNat → r.toNat ≤ 6 → s.env.writes = .busError :: writes →
      ∃ m, modeList r.toNat = some m ∧ exec (.setRes r) s = .next { s with
        seq := .idle, rsp := some ⟨.errBus, 0⟩, trace := s.trace ++ [.write s.addr m .busError],
        env := { s.env with writes := writes } }

/-- GET_SENS, GET_ACC and GET_RES answer the stored register, zero-extended, and change nothing else
(42_calibration.md sections 2 and 3, 41_mode.md section 3). -/
def Obligations.ReadsAnswerTheStoredRegister : Prop :=
  ∀ s : State, s.inited = true → ∃ d e f : Word,
    exec .getSens s = .next { s with seq := .idle, rsp := some ⟨.ok, d⟩ } ∧ d.toNat = s.sens.toNat
      ∧ exec .getAcc s = .next { s with seq := .idle, rsp := some ⟨.ok, e⟩ } ∧ e.toNat = s.acc.toNat
      ∧ exec .getRes s = .next { s with seq := .idle, rsp := some ⟨.ok, f⟩ } ∧ f.toNat = s.res.toNat

/-- After a SET_RES that was answered OK, GET_RES returns its index, whatever SET_MODE wrote in between
(41_mode.md section 3, 95_test_vectors.md S5). -/
def Obligations.GetResReturnsTheIndexSetDespiteSetMode : Prop :=
  ∀ (s t u v : State) (r : BitVec 16) (m : Byte) (d : Word), exec (.setRes r) s = .next t →
    t.rsp = some ⟨.ok, d⟩ → exec (.setMode m) t = .next u → exec .getRes u = .next v →
      v.rsp = some ⟨.ok, r.setWidth 32⟩

/-! ## Calibration -/

/-- 42_calibration.md R140: the three bands of SensClamp and the range of its results. -/
def Obligations.SensClampHasThreeBands : Prop :=
  ∀ (tie : TieRule) (f : Code),
    (f.toNat ≤ 449 → sensClamp tie f = (450, 31))
      ∧ (3682 ≤ f.toNat → sensClamp tie f = (3680, 254))
      ∧ (450 ≤ f.toNat → f.toNat ≤ 3681 →
          (sensClamp tie f).1 = f ∧ (sensClamp tie f).2.toNat = roundTie tie (f.toNat * 69) 1000)
      ∧ (f.toNat = 449 → (sensClamp tie f).2.toNat = roundTie tie (f.toNat * 69) 1000)
      ∧ (450 ≤ (sensClamp tie f).1.toNat ∧ (sensClamp tie f).1.toNat ≤ 3681)
      ∧ (31 ≤ (sensClamp tie f).2.toNat ∧ (sensClamp tie f).2.toNat ≤ 254)

/-- 42_calibration.md R141: nearest integer, the tie rule, and the four ties of the verbatim band with their
values. -/
def Obligations.RoundTieRoundsToNearest : Prop :=
  (∀ (tie : TieRule) (p d : Nat), 0 < d →
      (d < 2 * (p % d) → roundTie tie p d = p / d + 1) ∧ (2 * (p % d) < d → roundTie tie p d = p / d))
    ∧ (∀ p d : Nat, 0 < d → 2 * (p % d) = d →
        roundTie .halfUp p d = p / d + 1 ∧ roundTie .halfEven p d % 2 = 0
          ∧ (roundTie .halfEven p d = p / d ∨ roundTie .halfEven p d = p / d + 1))
    ∧ (∀ f : Nat, 450 ≤ f → f ≤ 3681 →
        (f * 69 % 1000 = 500 ↔ f = 500 ∨ f = 1500 ∨ f = 2500 ∨ f = 3500)
          ∧ (f * 69 % 1000 ≠ 500 → roundTie .halfEven (f * 69) 1000 = roundTie .halfUp (f * 69) 1000))
    ∧ [500, 1500, 2500, 3500].map (fun f => roundTie .halfEven (f * 69) 1000) = [34, 104, 172, 242]
    ∧ [500, 1500, 2500, 3500].map (fun f => roundTie .halfUp (f * 69) 1000) = [35, 104, 173, 242]

/-- 42_calibration.md R146: values outside the range snap to the exact boundary. -/
def Obligations.AccClampSnapsToTheBoundary : Prop :=
  ∀ a : Code, (a.toNat < 960 → accClamp a = 960) ∧ (1440 < a.toNat → accClamp a = 1440)
    ∧ (960 ≤ a.toNat → a.toNat ≤ 1440 → accClamp a = a)
    ∧ 960 ≤ (accClamp a).toNat ∧ (accClamp a).toNat ≤ 1440

/-- 30_encoding.md R80: the two command bytes carry MTREG[7:5] and MTREG[4:0] under their tags, lie in their ranges,
and are read as the MTreg commands of those bits. -/
def Obligations.MtregHalvesCarryAllEightBits : Prop :=
  ∀ mt : Byte,
    mtregHighByte mt = 0x40 ||| (mt >>> 5) ∧ mtregLowByte mt = 0x60 ||| (mt &&& 0x1F)
      ∧ 0x40 ≤ (mtregHighByte mt).toNat ∧ (mtregHighByte mt).toNat ≤ 0x47
      ∧ 0x60 ≤ (mtregLowByte mt).toNat ∧ (mtregLowByte mt).toNat ≤ 0x7F
      ∧ mt.toNat = 32 * ((mtregHighByte mt).toNat - 0x40) + ((mtregLowByte mt).toNat - 0x60)
      ∧ decodeWire (mtregHighByte mt) = .ok (.mtregHi (mt.extractLsb' 5 3))
      ∧ decodeWire (mtregLowByte mt) = .ok (.mtregLo (mt.extractLsb' 0 5))

/-- SET_SENS stores the clamped pair, then sends the high half, then the low half (42_calibration.md section 2). -/
def Obligations.SetSensCompletes : Prop :=
  ∀ (s : State) (f : Code) (writes : List WriteAnswer), s.inited = true → s.env.writes = .ok :: .ok :: writes →
    let mt : Byte := (sensClamp s.cfg.mtregTie f).2
    exec (.setSens f) s = .next { s with
      sens := (sensClamp s.cfg.mtregTie f).1, mtreg := mt, seq := .idle, rsp := some ⟨.ok, 0⟩,
      trace := s.trace ++ [.write s.addr (0x40 ||| (mt >>> 5)) .ok, .write s.addr (0x60 ||| (mt &&& 0x1F)) .ok],
      env := { s.env with writes := writes } }

/-- A BusError in either half leaves the new SENS and MTREG in place, and a failed high half is not followed by a low
half (42_calibration.md section 1, 60_exceptions.md section 3). -/
def Obligations.SetSensFailureKeepsTheNewPair : Prop :=
  ∀ (s : State) (f : Code) (writes : List WriteAnswer), s.inited = true →
    let mt : Byte := (sensClamp s.cfg.mtregTie f).2
    let t : State := { s with
      sens := (sensClamp s.cfg.mtregTie f).1, mtreg := mt, seq := .idle, rsp := some ⟨.errBus, 0⟩,
      env := { s.env with writes := writes } }
    (s.env.writes = .busError :: writes →
      exec (.setSens f) s = .next { t with trace := s.trace ++ [.write s.addr (0x40 ||| (mt >>> 5)) .busError] })
    ∧ (s.env.writes = .ok :: .busError :: writes →
      exec (.setSens f) s = .next { t with
        trace := s.trace ++ [.write s.addr (0x40 ||| (mt >>> 5)) .ok,
          .write s.addr (0x60 ||| (mt &&& 0x1F)) .busError] })

/-- SET_ACC stores the clamped accuracy and touches nothing else: no transaction (42_calibration.md section 3). -/
def Obligations.SetAccCompletes : Prop :=
  ∀ (s : State) (a : Code), s.inited = true → ∃ c : Code,
    exec (.setAcc a) s = .next { s with acc := c, seq := .idle, rsp := some ⟨.ok, 0⟩ }
      ∧ c.toNat = max 960 (min a.toNat 1440)

/-! ## Measurement -/

/-- 43_measurement.md R170 and 30_encoding.md R79: the two-bit test on any byte, and the classes of the six mode
opcodes. -/
def Obligations.BaseTimeFollowsTheTwoBitTest : Prop :=
  (∀ m : Byte, baseTime m = if m &&& 0x03 = 0x03 then 16 else 120)
    ∧ [(0x10 : Byte), 0x11, 0x20, 0x21].map baseTime = [120, 120, 120, 120]
    ∧ [(0x13 : Byte), 0x23].map baseTime = [16, 16]

/-- 43_measurement.md R171: the floor of the exact product, its range in each class for every SENS in [450, 3681],
never 0, 9 bits. -/
def Obligations.WaitIsTheFloorAndInRange : Prop :=
  ∀ (m : Byte) (sens : Code), 450 ≤ sens.toNat → sens.toNat ≤ 3681 →
    waitTime m sens = baseTime m * sens.toNat / 1000
      ∧ (m &&& 0x03 = 0x03 → 7 ≤ waitTime m sens ∧ waitTime m sens ≤ 58)
      ∧ (m &&& 0x03 ≠ 0x03 → 54 ≤ waitTime m sens ∧ waitTime m sens ≤ 441)
      ∧ waitTime m sens ≠ 0 ∧ waitTime m sens < 2 ^ 9
      ∧ (sens = 1025 → m &&& 0x03 ≠ 0x03 → waitTime m sens = 123)
      ∧ (sens = 2050 → m &&& 0x03 ≠ 0x03 → waitTime m sens = 246)

/-- 20_memory.md R55: RAW = low + 256 * high, with the high byte first or second by RAW_BYTE_ORDER, and
RAW = (high, low). -/
def Obligations.RawCountIsLowPlus256High : Prop :=
  ∀ b0 b1 : Byte,
    (rawCount .highFirst b0 b1).toNat = b1.toNat + 256 * b0.toNat
      ∧ (rawCount .lowFirst b0 b1).toNat = b0.toNat + 256 * b1.toNat
      ∧ (rawCount .highFirst b0 b1).extractLsb' 8 8 = b0 ∧ (rawCount .highFirst b0 b1).extractLsb' 0 8 = b1
      ∧ (rawCount .lowFirst b0 b1).extractLsb' 8 8 = b1 ∧ (rawCount .lowFirst b0 b1).extractLsb' 0 8 = b0
      ∧ State.reset.cfg.rawByteOrder = .highFirst

/-- 43_measurement.md R175: over the calibrated range the divisor is not 0 and the lux word is exactly the floored
quotient; the 0.5 factor halves the floored result (R176's derived remark). -/
def Obligations.LuxIsTheFlooredQuotient : Prop :=
  ∀ (raw : BitVec 16) (acc sens : Code) (res : BitVec 3), 960 ≤ acc.toNat → acc.toNat ≤ 1440 →
    450 ≤ sens.toNat → sens.toNat ≤ 3681 →
      luxDivisor acc sens res ≠ 0
        ∧ (convertLux raw acc sens res).toNat
          = raw.toNat * 1000000000 / (acc.toNat * sens.toNat * (if res = 2 ∨ res = 5 then 2 else 1))
        ∧ (res = 2 ∨ res = 5 →
            (convertLux raw acc sens res).toNat = (convertLux raw acc sens 1).toNat / 2)
        ∧ (raw = 0 → convertLux raw acc sens res = 0)

/-- 43_measurement.md R177: the bounds, reached, and the smallest result that is not zero. -/
def Obligations.LuxIsBoundedWithoutAClamp : Prop :=
  (∀ (raw : BitVec 16) (acc sens : Code) (res : BitVec 3), 960 ≤ acc.toNat → acc.toNat ≤ 1440 →
      450 ≤ sens.toNat → sens.toNat ≤ 3681 →
        (convertLux raw acc sens res).toNat ≤ 151701388
          ∧ (res = 2 ∨ res = 5 → (convertLux raw acc sens res).toNat ≤ 75850694)
          ∧ (raw ≠ 0 → 94 ≤ (convertLux raw acc sens res).toNat))
    ∧ convertLux 65535 960 450 1 = 151701388 ∧ convertLux 65535 960 450 2 = 75850694
    ∧ convertLux 1 1440 3681 2 = 94

/-- GET_VALUE on a calibrated block: reset, trigger with the byte in MODE, wait, read, convert (43_measurement.md
section 3), whatever P_RESET_RECORDS_MODE says; only MODE's old value is written back. -/
def Obligations.GetValueCompletes : Prop :=
  ∀ (s : State) (writes : List WriteAnswer) (b0 b1 : Byte) (reads : List ReadAnswer) (late : Nat)
    (lateness : List Nat), s.inited = true → Calibrated s → s.env.writes = .ok :: .ok :: .ok :: writes →
    s.env.reads = .bytes b0 b1 :: reads → s.env.lateness = late :: lateness →
      ∃ lux : Word, exec .getValue s = .next { s with
          seq := .idle, rsp := some ⟨.ok, lux⟩,
          trace := s.trace ++ [.write s.addr 0x01 .ok, .write s.addr 0x07 .ok, .write s.addr s.mode .ok,
            .sleep (baseTime s.mode * s.sens.toNat / 1000) (baseTime s.mode * s.sens.toNat / 1000 + late),
            .read s.addr (.bytes b0 b1)],
          env := { s.env with writes := writes, reads := reads, lateness := lateness } }
        ∧ lux.toNat = (rawCount s.cfg.rawByteOrder b0 b1).toNat * 1000000000
            / (s.acc.toNat * s.sens.toNat * (if s.res = 2 ∨ s.res = 5 then 2 else 1))

/-- Where a transaction of GET_VALUE fails, no later one is issued and no lux is returned; MODE can differ only under
P_RESET_RECORDS_MODE (43_measurement.md section 3, 60_exceptions.md section 3). -/
def Obligations.GetValueStopsAtAFailedTransaction : Prop :=
  ∀ (s : State) (writes : List WriteAnswer) (reads : List ReadAnswer) (late : Nat) (lateness : List Nat),
    s.inited = true →
    let t : State := { s with seq := .idle, rsp := some ⟨.errBus, 0⟩ }
    let wait : Nat := baseTime s.mode * s.sens.toNat / 1000
    (s.env.writes = .busError :: writes →
      exec .getValue s = .next { t with
        trace := s.trace ++ [.write s.addr 0x01 .busError], env := { s.env with writes := writes } })
    ∧ (s.env.writes = .ok :: .busError :: writes →
      exec .getValue s = .next { t with
        mode := if s.cfg.resetRecordsMode then 0x01 else s.mode,
        trace := s.trace ++ [.write s.addr 0x01 .ok, .write s.addr 0x07 .busError],
        env := { s.env with writes := writes } })
    ∧ (s.env.writes = .ok :: .ok :: .busError :: writes →
      exec .getValue s = .next { t with
        mode := if s.cfg.resetRecordsMode then 0x07 else s.mode,
        trace := s.trace ++ [.write s.addr 0x01 .ok, .write s.addr 0x07 .ok, .write s.addr s.mode .busError],
        env := { s.env with writes := writes } })
    ∧ (s.env.writes = .ok :: .ok :: .ok :: writes → s.env.reads = .busError :: reads →
        s.env.lateness = late :: lateness →
      exec .getValue s = .next { t with
        trace := s.trace ++ [.write s.addr 0x01 .ok, .write s.addr 0x07 .ok, .write s.addr s.mode .ok,
          .sleep wait (wait + late), .read s.addr .busError],
        env := { s.env with writes := writes, reads := reads, lateness := lateness } })

/-- The lux does not depend on MODE, which only triggers and times the measurement (70_reset_and_hazards.md section 2):
two blocks that differ in MODE alone, given the same answers, report the same response. -/
def Obligations.LuxDoesNotDependOnMode : Prop :=
  ∀ (s t u : State) (m : Byte) (writes : List WriteAnswer) (b0 b1 : Byte) (reads : List ReadAnswer),
    s.env.writes = .ok :: .ok :: .ok :: writes → s.env.reads = .bytes b0 b1 :: reads →
    exec .getValue s = .next t → exec .getValue { s with mode := m } = .next u → t.rsp = u.rsp

/-! ## Command bytes -/

/-- Each command byte (POWER_DOWN, POWER_ON, RESET_DR, CONT_H_RES, CONT_H_RES2, CONT_L_RES, ONE_H_RES, ONE_H_RES2,
ONE_L_RES, MTREG_HI, MTREG_LO), sent while no operation is in progress, is one BusWrite of its byte at ADDR and
changes nothing else (20_memory.md section 2; log 5). -/
def Obligations.CommandByteIsOneBusWrite : Prop :=
  ∀ (s : State) (i : Instr) (b : Byte) (a : WriteAnswer) (writes : List WriteAnswer),
    encode i = .wire b → s.seq = .idle → s.env.writes = a :: writes →
      exec i s = .next { s with
        trace := s.trace ++ [.write s.addr b a], env := { s.env with writes := writes } }

/-- A command byte of an operation in progress: its return advances SEQ by one step, its BusError ends the operation
with ERR_BUS (10_state.md section 4, 60_exceptions.md section 3; log 5). -/
def Obligations.CommandByteAdvancesOrEndsTheOperation : Prop :=
  ∀ (s : State) (i op : Instr) (k : Nat) (t : Transient) (b : Byte) (writes : List WriteAnswer),
    encode i = .wire b → s.seq = .busy op k t →
      (s.env.writes = .ok :: writes →
        exec i s = .next { s with
          seq := .busy op (k + 1) t, trace := s.trace ++ [.write s.addr b .ok],
          env := { s.env with writes := writes } })
      ∧ (s.env.writes = .busError :: writes →
        exec i s = .next { s with
          seq := .idle, rsp := some ⟨.errBus, 0⟩, trace := s.trace ++ [.write s.addr b .busError],
          env := { s.env with writes := writes } })
end

