-- ==== Sys2Proof/Laws/Decode.lean ====
section
/-!
SUPPORT. The fields of packed words, and what the decoders answer on packed operands, so that no proof about
encodings works on bits again.
-/

namespace Sys2Proof

@[simp] theorem opField_packRequest (op : BitVec 4) (imm : BitVec 16) : opField (packRequest op imm) = op := by
  ext i hi
  simp [packRequest, BitVec.getLsbD_eq_getElem, hi, show 28 + i < 32 by omega,
    BitVec.getLsbD_of_ge imm (28 + i) (by omega)]

@[simp] theorem rsvField_packRequest (op : BitVec 4) (imm : BitVec 16) : rsvField (packRequest op imm) = 0 := by
  ext i hi
  simp [packRequest, show 16 + i < 28 by omega]

@[simp] theorem immField_packRequest (op : BitVec 4) (imm : BitVec 16) : immField (packRequest op imm) = imm := by
  ext i hi
  simp [packRequest, BitVec.getLsbD_eq_getElem, hi, show i < 28 by omega, show i < 32 by omega]

/-- A word whose reserved field is zero is its op and imm packed. -/
theorem packRequest_fields {w : Word} (h : rsvField w = 0) : packRequest (opField w) (immField w) = w := by
  have reserved : ∀ j, j < 12 → w.getLsbD (16 + j) = false := fun j hj => by
    simpa [hj] using congrArg (fun v => v.getLsbD j) h
  ext i hi
  rcases Nat.lt_or_ge i 16 with low | high
  · simp [packRequest, show i < 28 by omega, low, BitVec.getLsbD_eq_getElem, hi]
  · rcases Nat.lt_or_ge i 28 with mid | top
    · have bit := reserved (i - 16) (by omega)
      rw [show 16 + (i - 16) = i by omega, BitVec.getLsbD_eq_getElem hi] at bit
      simp [packRequest, mid, high, bit]
    · simp [packRequest, high, show ¬ i < 28 by omega, show i - 28 < 4 by omega,
        show 28 + (i - 28) = i by omega, BitVec.getLsbD_eq_getElem hi]

@[simp] theorem highByte_setWidth (m : Byte) : (m.setWidth 16).extractLsb' 8 8 = 0 := by
  ext i hi
  simp

@[simp] theorem lowByte_setWidth (m : Byte) : (m.setWidth 16).extractLsb' 0 8 = m := by
  ext i hi
  simp [hi, BitVec.getLsbD_eq_getElem, show i < 16 by omega]

/-- An imm whose high byte is zero is its low byte, zero-extended. -/
theorem setWidth_lowByte {imm : BitVec 16} (h : imm.extractLsb' 8 8 = 0) :
    (imm.extractLsb' 0 8).setWidth 16 = imm := by
  have high : ∀ j, j < 8 → imm.getLsbD (8 + j) = false := fun j hj => by
    simpa [hj] using congrArg (fun v => v.getLsbD j) h
  ext i hi
  rcases Nat.lt_or_ge i 8 with low | top
  · simp [low, BitVec.getLsbD_eq_getElem hi]
  · have bit := high (i - 8) (by omega)
    rw [show 8 + (i - 8) = i by omega, BitVec.getLsbD_eq_getElem hi] at bit
    simp [show ¬ i < 8 by omega, bit]

/-- The decoder on a packed word: only op and imm are left to read. -/
@[simp] theorem decodeRequest_packRequest (op : BitVec 4) (imm : BitVec 16) :
    decodeRequest (packRequest op imm) = if 0xB ≤ op.toNat then .error .reservedOp else decodeOp op imm := by
  simp only [decodeRequest, opField_packRequest, rsvField_packRequest, immField_packRequest]
  simp

/-- What a decoded request word is made of. -/
theorem decodeRequest_ok {w : Word} {i : Instr} (h : decodeRequest w = .ok i) :
    rsvField w = 0 ∧ decodeOp (opField w) (immField w) = .ok i := by
  unfold decodeRequest at h
  split at h
  · cases h
  · split at h
    · cases h
    · exact ⟨by simpa using ‹¬ rsvField w ≠ 0›, h⟩

@[simp] theorem decodeWire_packMtregHi (h : BitVec 3) : decodeWire (packMtregHi h) = .ok (.mtregHi h) := by
  revert h; decide

@[simp] theorem decodeWire_packMtregLo (l : BitVec 5) : decodeWire (packMtregLo l) = .ok (.mtregLo l) := by
  revert l; decide

/-- The bits of a packed word under the mask of an operation that takes a whole imm (30_encoding.md R75). -/
theorem packRequest_and_opMask (op : BitVec 4) (imm : BitVec 16) :
    packRequest op imm &&& 0xFFFF0000 = packRequest op 0 := by
  ext i hi
  simp only [packRequest, BitVec.getElem_and, BitVec.getElem_or, BitVec.getElem_shiftLeft, BitVec.getElem_setWidth]
  interval_cases i <;> simp

/-- The bits of a packed word under the mask of SET_MODE (30_encoding.md R75). -/
theorem packRequest_and_byteMask (op : BitVec 4) (m : Byte) :
    packRequest op (m.setWidth 16) &&& 0xFFFFFF00 = packRequest op 0 := by
  ext i hi
  simp only [packRequest, BitVec.getElem_and, BitVec.getElem_or, BitVec.getElem_shiftLeft, BitVec.getElem_setWidth]
  interval_cases i <;> simp

end Sys2Proof
end

