-- ==== Sys2Proof/Laws/Operands.lean ====
section
/-!
SUPPORT. The pure functions at the values INIT applies (40_construction.md R101, R102), and the divisor of the lux
conversion.
-/

namespace Sys2Proof.Machine

theorem sensClamp_default (tie : TieRule) : sensClamp tie sensDefault = (1000, 69) := by
  cases tie <;> decide

theorem accClamp_default : accClamp accDefault = 1200 := by decide

theorem modeList_default : modeList resDefault.toNat = some 0x20 := by decide

theorem mtregHighByte_default : mtregHighByte 69 = 0x42 := by decide

theorem mtregLowByte_default : mtregLowByte 69 = 0x65 := by decide

theorem addrLegal_iff (a : BitVec 16) : addrLegal a = true ↔ a = 0x23 ∨ a = 0x5C := by simp [addrLegal]

theorem resLegal_iff (r : BitVec 16) : resLegal r = true ↔ 1 ≤ r.toNat ∧ r.toNat ≤ 6 := by simp [resLegal]

/-- The mode list has an opcode for exactly the six indices (30_encoding.md R78). -/
theorem modeList_isSome_iff (r : Nat) : (modeList r).isSome = true ↔ 1 ≤ r ∧ r ≤ 6 := by
  cases r with
  | zero => simp [modeList]
  | succ k =>
    simp [modeList, modeRom]

end Sys2Proof.Machine
end

