-- ==== Sys2Proof/Laws/State.lean ====
section
/-!
SUPPORT. What each shared update of the state does to each field, one lemma a field, so that no proof unfolds an
update.
-/

namespace Sys2Proof.Machine

/-! ## busStart -/

@[simp] theorem busStart_cfg (s : State) : (busStart s).cfg = s.cfg := rfl
@[simp] theorem busStart_inited (s : State) : (busStart s).inited = s.inited := rfl
@[simp] theorem busStart_busStartFail (s : State) : (busStart s).busStartFail = s.busStartFail := rfl
@[simp] theorem busStart_addr (s : State) : (busStart s).addr = s.addr := rfl
@[simp] theorem busStart_sens (s : State) : (busStart s).sens = s.sens := rfl
@[simp] theorem busStart_mtreg (s : State) : (busStart s).mtreg = s.mtreg := rfl
@[simp] theorem busStart_acc (s : State) : (busStart s).acc = s.acc := rfl
@[simp] theorem busStart_mode (s : State) : (busStart s).mode = s.mode := rfl
@[simp] theorem busStart_res (s : State) : (busStart s).res = s.res := rfl
@[simp] theorem busStart_seq (s : State) : (busStart s).seq = s.seq := rfl
@[simp] theorem busStart_rsp (s : State) : (busStart s).rsp = s.rsp := rfl
@[simp] theorem busStart_wire (s : State) : (busStart s).wire = s.wire := rfl
@[simp] theorem busStart_grain (s : State) : (busStart s).grain = s.grain := rfl
@[simp] theorem busStart_env (s : State) : (busStart s).env = { s.env with starts := s.env.starts.tail } := rfl
@[simp] theorem busStart_trace (s : State) :
    (busStart s).trace = s.trace ++ [.start s.addr s.cfg.busClkHz (nextStart s)] := rfl
@[simp] theorem busStart_responses (s : State) : (busStart s).responses = s.responses := rfl

/-! ## busWrite -/

@[simp] theorem busWrite_cfg (b : Byte) (s : State) : (busWrite b s).cfg = s.cfg := rfl
@[simp] theorem busWrite_inited (b : Byte) (s : State) : (busWrite b s).inited = s.inited := rfl
@[simp] theorem busWrite_busStartFail (b : Byte) (s : State) : (busWrite b s).busStartFail = s.busStartFail := rfl
@[simp] theorem busWrite_addr (b : Byte) (s : State) : (busWrite b s).addr = s.addr := rfl
@[simp] theorem busWrite_sens (b : Byte) (s : State) : (busWrite b s).sens = s.sens := rfl
@[simp] theorem busWrite_mtreg (b : Byte) (s : State) : (busWrite b s).mtreg = s.mtreg := rfl
@[simp] theorem busWrite_acc (b : Byte) (s : State) : (busWrite b s).acc = s.acc := rfl
@[simp] theorem busWrite_mode (b : Byte) (s : State) : (busWrite b s).mode = s.mode := rfl
@[simp] theorem busWrite_res (b : Byte) (s : State) : (busWrite b s).res = s.res := rfl
@[simp] theorem busWrite_seq (b : Byte) (s : State) : (busWrite b s).seq = s.seq := rfl
@[simp] theorem busWrite_rsp (b : Byte) (s : State) : (busWrite b s).rsp = s.rsp := rfl
@[simp] theorem busWrite_wire (b : Byte) (s : State) : (busWrite b s).wire = s.wire := rfl
@[simp] theorem busWrite_grain (b : Byte) (s : State) : (busWrite b s).grain = s.grain := rfl
@[simp] theorem busWrite_env (b : Byte) (s : State) :
    (busWrite b s).env = { s.env with writes := s.env.writes.tail } := rfl
@[simp] theorem busWrite_trace (b : Byte) (s : State) :
    (busWrite b s).trace = s.trace ++ [.write s.addr b (nextWrite s)] := rfl
@[simp] theorem busWrite_responses (b : Byte) (s : State) : (busWrite b s).responses = s.responses := rfl

/-! ## busRead -/

@[simp] theorem busRead_cfg (s : State) : (busRead s).cfg = s.cfg := rfl
@[simp] theorem busRead_inited (s : State) : (busRead s).inited = s.inited := rfl
@[simp] theorem busRead_busStartFail (s : State) : (busRead s).busStartFail = s.busStartFail := rfl
@[simp] theorem busRead_addr (s : State) : (busRead s).addr = s.addr := rfl
@[simp] theorem busRead_sens (s : State) : (busRead s).sens = s.sens := rfl
@[simp] theorem busRead_mtreg (s : State) : (busRead s).mtreg = s.mtreg := rfl
@[simp] theorem busRead_acc (s : State) : (busRead s).acc = s.acc := rfl
@[simp] theorem busRead_mode (s : State) : (busRead s).mode = s.mode := rfl
@[simp] theorem busRead_res (s : State) : (busRead s).res = s.res := rfl
@[simp] theorem busRead_seq (s : State) : (busRead s).seq = s.seq := rfl
@[simp] theorem busRead_rsp (s : State) : (busRead s).rsp = s.rsp := rfl
@[simp] theorem busRead_wire (s : State) : (busRead s).wire = s.wire := rfl
@[simp] theorem busRead_grain (s : State) : (busRead s).grain = s.grain := rfl
@[simp] theorem busRead_env (s : State) : (busRead s).env = { s.env with reads := s.env.reads.tail } := rfl
@[simp] theorem busRead_trace (s : State) : (busRead s).trace = s.trace ++ [.read s.addr (nextRead s)] := rfl
@[simp] theorem busRead_responses (s : State) : (busRead s).responses = s.responses := rfl

/-! ## sleep -/

@[simp] theorem sleep_cfg (ms : Nat) (s : State) : (sleep ms s).cfg = s.cfg := rfl
@[simp] theorem sleep_inited (ms : Nat) (s : State) : (sleep ms s).inited = s.inited := rfl
@[simp] theorem sleep_busStartFail (ms : Nat) (s : State) : (sleep ms s).busStartFail = s.busStartFail := rfl
@[simp] theorem sleep_addr (ms : Nat) (s : State) : (sleep ms s).addr = s.addr := rfl
@[simp] theorem sleep_sens (ms : Nat) (s : State) : (sleep ms s).sens = s.sens := rfl
@[simp] theorem sleep_mtreg (ms : Nat) (s : State) : (sleep ms s).mtreg = s.mtreg := rfl
@[simp] theorem sleep_acc (ms : Nat) (s : State) : (sleep ms s).acc = s.acc := rfl
@[simp] theorem sleep_mode (ms : Nat) (s : State) : (sleep ms s).mode = s.mode := rfl
@[simp] theorem sleep_res (ms : Nat) (s : State) : (sleep ms s).res = s.res := rfl
@[simp] theorem sleep_seq (ms : Nat) (s : State) : (sleep ms s).seq = s.seq := rfl
@[simp] theorem sleep_rsp (ms : Nat) (s : State) : (sleep ms s).rsp = s.rsp := rfl
@[simp] theorem sleep_wire (ms : Nat) (s : State) : (sleep ms s).wire = s.wire := rfl
@[simp] theorem sleep_grain (ms : Nat) (s : State) : (sleep ms s).grain = s.grain := rfl
@[simp] theorem sleep_env (ms : Nat) (s : State) :
    (sleep ms s).env = { s.env with lateness := s.env.lateness.tail } := rfl
@[simp] theorem sleep_trace (ms : Nat) (s : State) :
    (sleep ms s).trace = s.trace ++ [.sleep ms (ms + nextLateness s)] := rfl
@[simp] theorem sleep_responses (ms : Nat) (s : State) : (sleep ms s).responses = s.responses := rfl

/-! ## respond -/

@[simp] theorem respond_cfg (st : Status) (d : Word) (s : State) : (respond st d s).cfg = s.cfg := rfl
@[simp] theorem respond_inited (st : Status) (d : Word) (s : State) : (respond st d s).inited = s.inited := rfl
@[simp] theorem respond_busStartFail (st : Status) (d : Word) (s : State) :
    (respond st d s).busStartFail = s.busStartFail := rfl
@[simp] theorem respond_addr (st : Status) (d : Word) (s : State) : (respond st d s).addr = s.addr := rfl
@[simp] theorem respond_sens (st : Status) (d : Word) (s : State) : (respond st d s).sens = s.sens := rfl
@[simp] theorem respond_mtreg (st : Status) (d : Word) (s : State) : (respond st d s).mtreg = s.mtreg := rfl
@[simp] theorem respond_acc (st : Status) (d : Word) (s : State) : (respond st d s).acc = s.acc := rfl
@[simp] theorem respond_mode (st : Status) (d : Word) (s : State) : (respond st d s).mode = s.mode := rfl
@[simp] theorem respond_res (st : Status) (d : Word) (s : State) : (respond st d s).res = s.res := rfl
@[simp] theorem respond_seq (st : Status) (d : Word) (s : State) : (respond st d s).seq = .idle := rfl
@[simp] theorem respond_rsp (st : Status) (d : Word) (s : State) : (respond st d s).rsp = some ⟨st, d⟩ := rfl
@[simp] theorem respond_wire (st : Status) (d : Word) (s : State) : (respond st d s).wire = s.wire := rfl
@[simp] theorem respond_grain (st : Status) (d : Word) (s : State) : (respond st d s).grain = s.grain := rfl
@[simp] theorem respond_env (st : Status) (d : Word) (s : State) : (respond st d s).env = s.env := rfl
@[simp] theorem respond_trace (st : Status) (d : Word) (s : State) : (respond st d s).trace = s.trace := rfl
@[simp] theorem respond_responses (st : Status) (d : Word) (s : State) : (respond st d s).responses = s.responses := rfl

/-! ## takeResponse -/

@[simp] theorem takeResponse_cfg (r : Response) (s : State) : (takeResponse r s).cfg = s.cfg := rfl
@[simp] theorem takeResponse_inited (r : Response) (s : State) : (takeResponse r s).inited = s.inited := rfl
@[simp] theorem takeResponse_busStartFail (r : Response) (s : State) :
    (takeResponse r s).busStartFail = s.busStartFail := rfl
@[simp] theorem takeResponse_addr (r : Response) (s : State) : (takeResponse r s).addr = s.addr := rfl
@[simp] theorem takeResponse_sens (r : Response) (s : State) : (takeResponse r s).sens = s.sens := rfl
@[simp] theorem takeResponse_mtreg (r : Response) (s : State) : (takeResponse r s).mtreg = s.mtreg := rfl
@[simp] theorem takeResponse_acc (r : Response) (s : State) : (takeResponse r s).acc = s.acc := rfl
@[simp] theorem takeResponse_mode (r : Response) (s : State) : (takeResponse r s).mode = s.mode := rfl
@[simp] theorem takeResponse_res (r : Response) (s : State) : (takeResponse r s).res = s.res := rfl
@[simp] theorem takeResponse_seq (r : Response) (s : State) : (takeResponse r s).seq = s.seq := rfl
@[simp] theorem takeResponse_rsp (r : Response) (s : State) : (takeResponse r s).rsp = none := rfl
@[simp] theorem takeResponse_wire (r : Response) (s : State) : (takeResponse r s).wire = s.wire := rfl
@[simp] theorem takeResponse_grain (r : Response) (s : State) : (takeResponse r s).grain = s.grain := rfl
@[simp] theorem takeResponse_env (r : Response) (s : State) :
    (takeResponse r s).env = { s.env with delays := s.env.delays.tail } := rfl
@[simp] theorem takeResponse_trace (r : Response) (s : State) : (takeResponse r s).trace = s.trace := rfl
@[simp] theorem takeResponse_responses (r : Response) (s : State) :
    (takeResponse r s).responses = s.responses ++ [r] := rfl

/-! ## accepted -/

@[simp] theorem accepted_seq (i : Instr) (s : State) : (accepted i s).seq = .busy i 0 (openingTransient i s) := rfl
@[simp] theorem accepted_cfg (i : Instr) (s : State) : (accepted i s).cfg = s.cfg := rfl
@[simp] theorem accepted_inited (i : Instr) (s : State) : (accepted i s).inited = s.inited := rfl
@[simp] theorem accepted_busStartFail (i : Instr) (s : State) : (accepted i s).busStartFail = s.busStartFail := rfl
@[simp] theorem accepted_addr (i : Instr) (s : State) : (accepted i s).addr = s.addr := rfl
@[simp] theorem accepted_sens (i : Instr) (s : State) : (accepted i s).sens = s.sens := rfl
@[simp] theorem accepted_mtreg (i : Instr) (s : State) : (accepted i s).mtreg = s.mtreg := rfl
@[simp] theorem accepted_acc (i : Instr) (s : State) : (accepted i s).acc = s.acc := rfl
@[simp] theorem accepted_mode (i : Instr) (s : State) : (accepted i s).mode = s.mode := rfl
@[simp] theorem accepted_res (i : Instr) (s : State) : (accepted i s).res = s.res := rfl
@[simp] theorem accepted_rsp (i : Instr) (s : State) : (accepted i s).rsp = s.rsp := rfl
@[simp] theorem accepted_wire (i : Instr) (s : State) : (accepted i s).wire = s.wire := rfl
@[simp] theorem accepted_env (i : Instr) (s : State) : (accepted i s).env = s.env := rfl
@[simp] theorem accepted_grain (i : Instr) (s : State) : (accepted i s).grain = s.grain := rfl
@[simp] theorem accepted_trace (i : Instr) (s : State) : (accepted i s).trace = s.trace := rfl
@[simp] theorem accepted_responses (i : Instr) (s : State) : (accepted i s).responses = s.responses := rfl

@[simp] theorem nextStart_accepted (i : Instr) (s : State) : nextStart (accepted i s) = nextStart s := rfl
@[simp] theorem nextWrite_accepted (i : Instr) (s : State) : nextWrite (accepted i s) = nextWrite s := rfl
@[simp] theorem nextRead_accepted (i : Instr) (s : State) : nextRead (accepted i s) = nextRead s := rfl
@[simp] theorem nextLateness_accepted (i : Instr) (s : State) : nextLateness (accepted i s) = nextLateness s := rfl
@[simp] theorem byteOf_accepted (src : ByteSource) (t : Transient) (i : Instr) (s : State) :
    byteOf src t (accepted i s) = byteOf src t s := by cases src <;> rfl
@[simp] theorem dataOf_accepted (src : DataSource) (t : Transient) (i : Instr) (s : State) :
    dataOf src t (accepted i s) = dataOf src t s := by cases src <;> rfl
theorem openingTransient_getValue (s : State) : openingTransient .getValue s = { blankTransient with m := s.mode } := rfl
theorem openingTransient_other {i : Instr} (h : i ≠ .getValue) (s : State) : openingTransient i s = blankTransient :=
  if_neg h

/-! ## raiseError and answerIllegal are responses -/

@[simp] theorem raiseError_eq_respond (e : Status) (s : State) : raiseError e s = respond e 0 s := rfl
@[simp] theorem answerIllegal_eq_respond (s : State) : answerIllegal s = respond .errIllegalRequest 0 s := rfl

/-! ## Scripted answers -/

theorem nextStart_of_script {s : State} {a : StartAnswer} {rest : List StartAnswer}
    (h : s.env.starts = a :: rest) : nextStart s = a := by simp [nextStart, h]
theorem nextWrite_of_script {s : State} {a : WriteAnswer} {rest : List WriteAnswer}
    (h : s.env.writes = a :: rest) : nextWrite s = a := by simp [nextWrite, h]
theorem nextRead_of_script {s : State} {a : ReadAnswer} {rest : List ReadAnswer}
    (h : s.env.reads = a :: rest) : nextRead s = a := by simp [nextRead, h]
theorem nextDelay_of_script {s : State} {n : Nat} {rest : List Nat} (h : s.env.delays = n :: rest) :
    nextDelay s = n := by simp [nextDelay, h]
theorem nextLateness_of_script {s : State} {n : Nat} {rest : List Nat}
    (h : s.env.lateness = n :: rest) : nextLateness s = n := by simp [nextLateness, h]

end Sys2Proof.Machine
end

