-- ==== Sys2Proof/Laws/Ops.lean ====
section
/-!
SUPPORT. What each shared operation can do, said once: a line, a list of lines, an operation, the transmission of a
command byte, and the shape of `exec` and `step`. Proofs about the machine cite these and do not unfold it.
-/

namespace Sys2Proof.Machine

/-! ## What no operation touches -/

/-- From `s` to `t` the configuration, the step size, the bus port, the requests that wait, the host's delays and the
responses taken are kept, and transactions are only added. -/
structure Keeps (s t : State) : Prop where
  cfg : t.cfg = s.cfg
  grain : t.grain = s.grain
  wire : t.wire = s.wire
  delays : t.env.delays = s.env.delays
  responses : t.responses = s.responses
  requests : t.env.requests = s.env.requests
  trace : s.trace <+: t.trace

theorem Keeps.refl (s : State) : Keeps s s := ⟨rfl, rfl, rfl, rfl, rfl, rfl, List.prefix_refl _⟩

theorem Keeps.trans {s t u : State} (h : Keeps s t) (k : Keeps t u) : Keeps s u :=
  ⟨k.cfg.trans h.cfg, k.grain.trans h.grain, k.wire.trans h.wire, k.delays.trans h.delays, k.responses.trans h.responses, k.requests.trans h.requests,
    h.trace.trans k.trace⟩

theorem busStart_keeps (s : State) : Keeps s (busStart s) := ⟨rfl, rfl, rfl, rfl, rfl, rfl, List.prefix_append _ _⟩
theorem busWrite_keeps (b : Byte) (s : State) : Keeps s (busWrite b s) :=
  ⟨rfl, rfl, rfl, rfl, rfl, rfl, List.prefix_append _ _⟩
theorem busRead_keeps (s : State) : Keeps s (busRead s) := ⟨rfl, rfl, rfl, rfl, rfl, rfl, List.prefix_append _ _⟩
theorem sleep_keeps (ms : Nat) (s : State) : Keeps s (sleep ms s) := ⟨rfl, rfl, rfl, rfl, rfl, rfl, List.prefix_append _ _⟩
theorem accepted_keeps (i : Instr) (s : State) : Keeps s (accepted i s) :=
  ⟨rfl, rfl, rfl, rfl, rfl, rfl, List.prefix_refl _⟩
theorem respond_keeps (st : Status) (d : Word) (s : State) : Keeps s (respond st d s) :=
  ⟨rfl, rfl, rfl, rfl, rfl, rfl, List.prefix_refl _⟩

/-! ## Lines -/

/-- A line after which the operation goes on keeps SEQ and the response registers too. -/
theorem runLine_goesOn {l : Line} {t t' : Transient} {s s' : State} (h : runLine l t s = .goesOn t' s') :
    Keeps s s' ∧ s'.seq = s.seq ∧ s'.rsp = s.rsp := by
  cases l <;> simp only [runLine] at h
  case busWrite src =>
    split at h <;> cases h
    exact ⟨busWrite_keeps _ _, rfl, rfl⟩
  case busRead =>
    split at h <;> cases h
    exact ⟨busRead_keeps _, rfl, rfl⟩
  case busStart => cases h; exact ⟨busStart_keeps _, rfl, rfl⟩
  case sleep => cases h; exact ⟨sleep_keeps _ _, rfl, rfl⟩
  case respond => cases h
  all_goals
    cases h
    exact ⟨⟨rfl, rfl, rfl, rfl, rfl, rfl, List.prefix_refl _⟩, rfl, rfl⟩

/-- A line that ends the operation is a response, or a bus transaction that failed. -/
theorem runLine_ended {l : Line} {t : Transient} {s s' : State} (h : runLine l t s = .ended s') :
    (∃ st src, l = .respond st src ∧ s' = respond st (dataOf src t s) s)
      ∨ (∃ src, l = .busWrite src ∧ nextWrite s = .busError
          ∧ s' = respond .errBus 0 (busWrite (byteOf src t s) s))
      ∨ (l = .busRead ∧ nextRead s = .busError ∧ s' = respond .errBus 0 (busRead s)) := by
  cases l <;> simp only [runLine] at h
  case respond st src => cases h; exact .inl ⟨st, src, rfl, rfl⟩
  case busWrite src =>
    split at h <;> cases h
    exact .inr (.inl ⟨src, rfl, ‹_›, rfl⟩)
  case busRead =>
    split at h <;> cases h
    exact .inr (.inr ⟨rfl, ‹_›, rfl⟩)
  all_goals cases h

/-- A line that ends the operation leaves a response, and SEQ = IDLE. -/
theorem runLine_ended_responds {l : Line} {t : Transient} {s s' : State} (h : runLine l t s = .ended s') :
    Keeps s s' ∧ s'.seq = .idle ∧ ∃ r, s'.rsp = some r := by
  rcases runLine_ended h with ⟨st, src, -, rfl⟩ | ⟨src, -, -, rfl⟩ | ⟨-, -, rfl⟩
  · exact ⟨respond_keeps _ _ _, rfl, _, rfl⟩
  · exact ⟨(busWrite_keeps _ _).trans (respond_keeps _ _ _), rfl, _, rfl⟩
  · exact ⟨(busRead_keeps _).trans (respond_keeps _ _ _), rfl, _, rfl⟩

/-! ## Lists of lines -/

@[simp] theorem runLines_nil (t : Transient) (s : State) : runLines [] t s = s := rfl

theorem runLines_cons (l : Line) (rest : List Line) (t : Transient) (s : State) :
    runLines (l :: rest) t s =
      match runLine l t s with
      | .goesOn t' s' => runLines rest t' s'
      | .ended s' => s' := rfl

/-! One equation for each kind of line that can go two ways or end the operation; with the bus's answer known, the
operation runs on through rewriting alone. -/

theorem runLines_busWrite_ok {s : State} (h : nextWrite s = .ok) (src : ByteSource) (rest : List Line)
    (t : Transient) : runLines (.busWrite src :: rest) t s = runLines rest t (busWrite (byteOf src t s) s) := by
  simp [runLines_cons, runLine, h]

theorem runLines_busWrite_error {s : State} (h : nextWrite s = .busError) (src : ByteSource) (rest : List Line)
    (t : Transient) :
    runLines (.busWrite src :: rest) t s = respond .errBus 0 (busWrite (byteOf src t s) s) := by
  simp [runLines_cons, runLine, h]

theorem runLines_busRead_ok {s : State} {b0 b1 : Byte} (h : nextRead s = .bytes b0 b1) (rest : List Line)
    (t : Transient) :
    runLines (.busRead :: rest) t s = runLines rest (assignLux b0 b1 t s) (busRead s) := by
  simp [runLines_cons, runLine, h]

theorem runLines_busRead_error {s : State} (h : nextRead s = .busError) (rest : List Line) (t : Transient) :
    runLines (.busRead :: rest) t s = respond .errBus 0 (busRead s) := by
  simp [runLines_cons, runLine, h]

@[simp] theorem runLines_respond (st : Status) (src : DataSource) (rest : List Line) (t : Transient) (s : State) :
    runLines (.respond st src :: rest) t s = respond st (dataOf src t s) s := rfl

theorem runLines_keeps (ls : List Line) (t : Transient) (s : State) : Keeps s (runLines ls t s) := by
  induction ls generalizing t s with
  | nil => exact Keeps.refl s
  | cons l rest ih =>
    rw [runLines_cons]
    split
    · next h => exact (runLine_goesOn h).1.trans (ih _ _)
    · next h => exact (runLine_ended_responds h).1

/-- The last line is a `respond`. -/
def EndsInResponse (ls : List Line) : Prop := ∃ st src, [Line.respond st src] <:+ ls

theorem endsInResponse_single (st : Status) (src : DataSource) : EndsInResponse [.respond st src] :=
  ⟨st, src, List.suffix_rfl⟩

theorem EndsInResponse.append {ls : List Line} (h : EndsInResponse ls) (front : List Line) :
    EndsInResponse (front ++ ls) :=
  let ⟨st, src, last⟩ := h
  ⟨st, src, last.trans (List.suffix_append _ _)⟩

theorem EndsInResponse.gated {ls : List Line} (h : EndsInResponse ls) (inited : Bool) :
    EndsInResponse (gated inited ls) := by
  cases inited
  · exact endsInResponse_single _ _
  · exact h

/-- A list of lines whose last one is a `respond` ends with a response and SEQ = IDLE. -/
theorem runLines_responds {ls : List Line} (h : EndsInResponse ls) (t : Transient) (s : State) :
    (runLines ls t s).seq = .idle ∧ ∃ r, (runLines ls t s).rsp = some r := by
  obtain ⟨st, src, last⟩ := h
  induction ls generalizing t s with
  | nil => simp at last
  | cons l rest ih =>
    rw [runLines_cons]
    rcases List.suffix_cons_iff.mp last with only | later
    · cases only
      exact ⟨rfl, _, rfl⟩
    · split
      · exact ih _ _ later
      · next h => exact (runLine_ended_responds h).2

/-! ## Operations -/

/-- Every operation's step list ends in a `respond`. -/
theorem program_ends (cfg : Config) (inited : Bool) {i : Instr} (hi : i.isRequest = true) :
    EndsInResponse (program cfg inited i) := by
  cases i <;> simp only [Instr.isRequest, reduceCtorEq] at hi <;> simp only [program]
  case init addr =>
    unfold initLines
    split
    · exact ((endsInResponse_single _ _).append [Line.writeInited true]).append _
    · exact endsInResponse_single _ _
  case setMode m => exact ((endsInResponse_single _ _).append _).gated _
  case reset => exact ((endsInResponse_single _ _).append _).gated _
  case setSens f => exact ((endsInResponse_single _ _).append _).gated _
  case getSens => exact (endsInResponse_single _ _).gated _
  case setAcc a => exact ((endsInResponse_single _ _).append _).gated _
  case getAcc => exact (endsInResponse_single _ _).gated _
  case setRes r =>
    unfold setResLines
    split
    · exact ((endsInResponse_single _ _).append _).gated _
    · exact (endsInResponse_single _ _).gated _
  case getRes => exact (endsInResponse_single _ _).gated _
  case getValue => exact ((endsInResponse_single _ _).append _).gated _
  case getStatus => exact endsInResponse_single _ _

/-- An operation's meaning is its step list, run whole. -/
theorem exec_request {i : Instr} (hi : i.isRequest = true) (s : State) :
    exec i s = .next (runOperation i (program s.cfg s.inited i) s) := by
  cases i <;> first | rfl | cases hi

/-- A command byte's meaning is its transmission. -/
theorem exec_command {i : Instr} {b : Byte} (hi : encode i = .wire b) (s : State) :
    exec i s = .next (sendCommand b s) := by
  cases i <;> simp only [encode, reduceCtorEq, PortWord.wire.injEq] at hi <;> subst hi <;> rfl

/-- An instruction is an operation, or a command byte. -/
theorem isRequest_or_command (i : Instr) : i.isRequest = true ∨ ∃ b, encode i = .wire b := by
  cases i <;> first | exact .inl rfl | exact .inr ⟨_, rfl⟩

/-! ## The bus port -/

theorem sendCommand_idle {s : State} (h : s.seq = .idle) (b : Byte) : sendCommand b s = busWrite b s := by
  simp [sendCommand, h]

theorem sendCommand_busy_ok {s : State} {op : Instr} {k : Nat} {t : Transient} (h : s.seq = .busy op k t)
    (ok : nextWrite s = .ok) (b : Byte) :
    sendCommand b s = { busWrite b s with seq := .busy op (k + 1) t } := by
  simp [sendCommand, h, ok]

theorem sendCommand_busy_error {s : State} {op : Instr} {k : Nat} {t : Transient} (h : s.seq = .busy op k t)
    (err : nextWrite s = .busError) (b : Byte) :
    sendCommand b s = respond .errBus 0 (busWrite b s) := by
  simp [sendCommand, h, err]

/-- The three ways a transmission can go. -/
theorem sendCommand_cases (b : Byte) (s : State) :
    (s.seq = .idle ∧ sendCommand b s = busWrite b s)
      ∨ (∃ op k t, s.seq = .busy op k t ∧ nextWrite s = .ok
          ∧ sendCommand b s = { busWrite b s with seq := .busy op (k + 1) t })
      ∨ (∃ op k t, s.seq = .busy op k t ∧ nextWrite s = .busError
          ∧ sendCommand b s = respond .errBus 0 (busWrite b s)) := by
  cases hs : s.seq with
  | idle => exact .inl ⟨rfl, sendCommand_idle hs b⟩
  | busy op k t =>
    cases hw : nextWrite s with
    | ok => exact .inr (.inl ⟨op, k, t, rfl, rfl, sendCommand_busy_ok hs hw b⟩)
    | busError => exact .inr (.inr ⟨op, k, t, rfl, rfl, sendCommand_busy_error hs hw b⟩)

/-- A transmission changes no register (70_reset_and_hazards.md R244). -/
theorem sendCommand_registers (b : Byte) (s : State) :
    (sendCommand b s).inited = s.inited ∧ (sendCommand b s).busStartFail = s.busStartFail
      ∧ (sendCommand b s).addr = s.addr ∧ (sendCommand b s).sens = s.sens
      ∧ (sendCommand b s).mtreg = s.mtreg ∧ (sendCommand b s).acc = s.acc
      ∧ (sendCommand b s).mode = s.mode ∧ (sendCommand b s).res = s.res := by
  rcases sendCommand_cases b s with ⟨-, h⟩ | ⟨op, k, t, -, -, h⟩ | ⟨op, k, t, -, -, h⟩ <;> simp [h]

theorem sendCommand_keeps (b : Byte) (s : State) : Keeps s (sendCommand b s) := by
  rcases sendCommand_cases b s with ⟨-, h⟩ | ⟨op, k, t, -, -, h⟩ | ⟨op, k, t, -, -, h⟩ <;> rw [h]
  · exact busWrite_keeps b s
  · exact ⟨rfl, rfl, rfl, rfl, rfl, rfl, List.prefix_append _ _⟩
  · exact (busWrite_keeps b s).trans (respond_keeps _ _ _)

/-! ## The host's side -/

/-- The two things the host can do with a pending response. -/
theorem holdOrTake_cases (r : Response) (s : State) :
    (nextDelay s = 0 ∧ holdOrTake r s = takeResponse r s)
      ∨ (∃ n, nextDelay s = n + 1
          ∧ holdOrTake r s = { s with env := { s.env with delays := n :: s.env.delays.tail } }) := by
  unfold holdOrTake
  split
  · next h => exact .inl ⟨h, rfl⟩
  · next n h => exact .inr ⟨n, h, rfl⟩

/-! ## One line of an operation in progress -/

/-- The three ways a step of a BUSY block can go: a byte is put on the bus port, a line is done and SEQ counts it, or
the operation ends (10_state.md R32). -/
theorem advance_cases {op : Instr} {k : Nat} {t : Transient} {s u : State} (h : advance op k t s = .next u) :
    (∃ src, (program s.cfg s.inited op)[k]? = some (.busWrite src)
        ∧ u = { s with wire := some (byteOf src t s) })
      ∨ (∃ l t' s', (program s.cfg s.inited op)[k]? = some l ∧ (∀ src, l ≠ .busWrite src)
          ∧ runLine l t s = .goesOn t' s' ∧ u = { s' with seq := .busy op (k + 1) t' })
      ∨ (∃ l, (program s.cfg s.inited op)[k]? = some l ∧ (∀ src, l ≠ .busWrite src)
          ∧ runLine l t s = .ended u) := by
  unfold advance at h
  split at h
  · cases h
  · next src hl => cases h; exact .inl ⟨src, hl, rfl⟩
  · next l notWrite hl =>
    split at h
    · next t' s' hr => cases h; exact .inr (.inl ⟨l, t', s', hl, notWrite, hr, rfl⟩)
    · next hr => cases h; exact .inr (.inr ⟨l, hl, notWrite, hr⟩)

/-! ## One step -/

theorem step_wire_known {s : State} {b : Byte} {i : Instr} (hw : s.wire = some b) (hd : decodeWire b = .ok i) :
    step s = exec i { s with wire := none } := by
  simp [step, nextAction, hw, transmit, hd]

theorem step_wire_unknown {s : State} {b : Byte} {e : DecodeError} (hw : s.wire = some b)
    (hd : decodeWire b = .error e) : step s = .next (sendCommand b { s with wire := none }) := by
  simp [step, nextAction, hw, transmit, hd]

theorem step_busy {s : State} {op : Instr} {k : Nat} {t : Transient} (hw : s.wire = none)
    (hs : s.seq = .busy op k t) : step s = advance op k t s := by
  simp [step, nextAction, hw, hs]

theorem step_pending {s : State} {r : Response} (hw : s.wire = none) (hs : s.seq = .idle) (hr : s.rsp = some r) :
    step s = .next (holdOrTake r s) := by
  simp [step, nextAction, hw, hs, hr]

/-- At acceptance SEQ goes from IDLE to BUSY (20_memory.md R64). -/
theorem step_accept {s : State} {w : Word} {rest : List Word} {i : Instr} (hg : s.grain = .line)
    (hw : s.wire = none) (hs : s.seq = .idle) (hr : s.rsp = none) (hq : s.env.requests = w :: rest)
    (hd : decodeRequest w = .ok i) :
    step s = .next (accepted i { s with env := { s.env with requests := rest } }) := by
  simp [step, nextAction, hg, hw, hs, hr, hq, accept, hd]

theorem step_accept_whole {s : State} {w : Word} {rest : List Word} {i : Instr} (hg : s.grain = .operation)
    (hw : s.wire = none) (hs : s.seq = .idle) (hr : s.rsp = none) (hq : s.env.requests = w :: rest)
    (hd : decodeRequest w = .ok i) :
    step s = exec i { s with env := { s.env with requests := rest } } := by
  simp [step, nextAction, hg, hw, hs, hr, hq, accept, hd]

theorem step_illegal {s : State} {w : Word} {rest : List Word} {e : DecodeError} (hw : s.wire = none)
    (hs : s.seq = .idle) (hr : s.rsp = none) (hq : s.env.requests = w :: rest)
    (hd : decodeRequest w = .error e) :
    step s = .next (respond .errIllegalRequest 0 { s with env := { s.env with requests := rest } }) := by
  simp [step, nextAction, hw, hs, hr, hq, accept, hd]

theorem step_waits {s : State} (hw : s.wire = none) (hs : s.seq = .idle) (hr : s.rsp = none)
    (hq : s.env.requests = []) : step s = .next s := by
  simp [step, nextAction, hw, hs, hr, hq]

end Sys2Proof.Machine
end

