-- ==== Sys2Proof/Laws/PerInstr.lean ====
section
/-!
SUPPORT. A statement about every instruction as syntax, one lemma a constructor.
-/

namespace Sys2Proof.Laws.RowMatch

/-- The word of an instruction is selected by its row of the opcode table (30_encoding.md R75, R77). -/
def Statement (i : Instr) : Prop := i.row.selects (encode i) = true

theorem init (addr : BitVec 16) : Statement (.init addr) := by
  simp only [Statement, Instr.row, encode, Row.selects, packRequest_and_opMask]
  rfl
theorem setMode (m : Byte) : Statement (.setMode m) := by
  simp only [Statement, Instr.row, encode, Row.selects, packRequest_and_byteMask]
  rfl
theorem reset : Statement .reset := by simp [Statement, Instr.row, encode, Row.selects, packRequest]
theorem setSens (f : Code) : Statement (.setSens f) := by
  simp only [Statement, Instr.row, encode, Row.selects, packRequest_and_opMask]
  rfl
theorem getSens : Statement .getSens := by simp [Statement, Instr.row, encode, Row.selects, packRequest]
theorem setAcc (a : Code) : Statement (.setAcc a) := by
  simp only [Statement, Instr.row, encode, Row.selects, packRequest_and_opMask]
  rfl
theorem getAcc : Statement .getAcc := by simp [Statement, Instr.row, encode, Row.selects, packRequest]
theorem setRes (r : BitVec 16) : Statement (.setRes r) := by
  simp only [Statement, Instr.row, encode, Row.selects, packRequest_and_opMask]
  rfl
theorem getRes : Statement .getRes := by simp [Statement, Instr.row, encode, Row.selects, packRequest]
theorem getValue : Statement .getValue := by simp [Statement, Instr.row, encode, Row.selects, packRequest]
theorem getStatus : Statement .getStatus := by simp [Statement, Instr.row, encode, Row.selects, packRequest]
theorem powerDown : Statement .powerDown := by simp [Statement, Instr.row, encode, Row.selects]
theorem powerOn : Statement .powerOn := by simp [Statement, Instr.row, encode, Row.selects]
theorem resetDr : Statement .resetDr := by simp [Statement, Instr.row, encode, Row.selects]
theorem contHRes : Statement .contHRes := by simp [Statement, Instr.row, encode, Row.selects]
theorem contHRes2 : Statement .contHRes2 := by simp [Statement, Instr.row, encode, Row.selects]
theorem contLRes : Statement .contLRes := by simp [Statement, Instr.row, encode, Row.selects]
theorem oneHRes : Statement .oneHRes := by simp [Statement, Instr.row, encode, Row.selects]
theorem oneHRes2 : Statement .oneHRes2 := by simp [Statement, Instr.row, encode, Row.selects]
theorem oneLRes : Statement .oneLRes := by simp [Statement, Instr.row, encode, Row.selects]
theorem mtregHi (h : BitVec 3) : Statement (.mtregHi h) := by
  simp only [Statement, Instr.row, encode, Row.selects]
  revert h; decide
theorem mtregLo (l : BitVec 5) : Statement (.mtregLo l) := by
  simp only [Statement, Instr.row, encode, Row.selects]
  revert l; decide

end Sys2Proof.Laws.RowMatch
end

