-- ==== Sys2Proof/Tests/Slice0.lean ====
section
/-!
SUPPORT. The model's own tests. Expected values are from spec/95_test_vectors.md or worked by hand from the rules;
each theorem is one decoding, one function value or one step. The witnesses at the end meet the hypotheses of the
statements.
-/

namespace Sys2Proof.Tests

open Sys2Proof Sys2Proof.Machine Sys2Proof.Safety

/-! ## Small states -/

/-- The block after a successful INIT 0x23, with the given answers waiting on the bus. -/
def booted (writes : List WriteAnswer) (reads : List ReadAnswer) : State :=
  { State.reset with
    inited := true, addr := 0x23, sens := 1000, mtreg := 69, acc := 1200, mode := 0x20, res := 1
    env := ⟨[], [], writes, reads, [0], []⟩ }

/-- The reset block with a bus start answer and write answers waiting. -/
def fresh (start : StartAnswer) (writes : List WriteAnswer) : State :=
  { State.reset with env := ⟨[], [start], writes, [], [], []⟩ }

/-- An initialised block that takes its steps line by line, with a request word presented. -/
def presented (w : Word) : State :=
  { booted [] [] with env := { (booted [] []).env with requests := [w] } }

/-- An initialised block with the response 7 pending, which the host leaves for `delay` steps. -/
def answered (delay : Nat) : State :=
  respond .ok 7 { booted [] [] with env := { (booted [] []).env with delays := [delay] } }

/-- The response an instruction leaves. -/
def answer (i : Instr) (s : State) : Option Response := (goesTo (exec i s)).bind (·.rsp)

/-! ## Well-formedness: an ill-formed term for each check -/

theorem test_legal_getSens : legalRequest 0x40000000 = true := by decide
theorem test_illegal_op : opDefined 0xB0000000 = false := by decide
theorem test_illegal_rsv : rsvZero 0x00010023 = false := by decide
theorem test_illegal_setMode_imm : immZeroWhereDue 0x10000100 = false := by decide
theorem test_illegal_getStatus_imm : immZeroWhereDue 0xA0008000 = false := by decide
theorem test_unknown_command : knownCommand 0x48 = false := by decide
theorem test_asm_accepts : AsmLine.wellFormed ⟨.init, .absent⟩ = true := by decide
theorem test_asm_rejects_wide_byte : AsmLine.wellFormed ⟨.setMode, .num 256⟩ = false := by decide
theorem test_asm_rejects_wide_code : AsmLine.wellFormed ⟨.setSens, .num 65536⟩ = false := by decide
theorem test_asm_rejects_missing_index : AsmLine.wellFormed ⟨.setRes, .absent⟩ = false := by decide
theorem test_asm_rejects_extra_operand : AsmLine.wellFormed ⟨.reset, .num 0⟩ = false := by decide
theorem test_asm_rejects_four_digits : AsmLine.wellFormed ⟨.setSensF, .decimal 1 [0, 0, 0, 0]⟩ = false := by decide
theorem test_asm_decimal : assemble ⟨.setSensF, .decimal 3 [6, 8]⟩ = some (.req 0x30000E60) := by decide

/-! ## Decoding: a word written out for every constructor (30_encoding.md R75, R77; 95_test_vectors.md 2.1) -/

theorem test_decode_init : decodeTableWord 32 0x00000023 = some (.init 0x23) := by decide
theorem test_decode_setMode : decodeTableWord 32 0x100000FF = some (.setMode 0xFF) := by decide
theorem test_decode_reset : decodeTableWord 32 0x20000000 = some .reset := by decide
theorem test_decode_setSens : decodeTableWord 32 0x300007D0 = some (.setSens 2000) := by decide
theorem test_decode_getSens : decodeTableWord 32 0x40000000 = some .getSens := by decide
theorem test_decode_setAcc : decodeTableWord 32 0x500004B0 = some (.setAcc 1200) := by decide
theorem test_decode_getAcc : decodeTableWord 32 0x60000000 = some .getAcc := by decide
theorem test_decode_setRes : decodeTableWord 32 0x70000101 = some (.setRes 257) := by decide
theorem test_decode_getRes : decodeTableWord 32 0x80000000 = some .getRes := by decide
theorem test_decode_getValue : decodeTableWord 32 0x90000000 = some .getValue := by decide
theorem test_decode_getStatus : decodeTableWord 32 0xA0000000 = some .getStatus := by decide
theorem test_decode_powerDown : decodeTableWord 8 0b00000000 = some .powerDown := by decide
theorem test_decode_powerOn : decodeTableWord 8 0b00000001 = some .powerOn := by decide
theorem test_decode_resetDr : decodeTableWord 8 0b00000111 = some .resetDr := by decide
theorem test_decode_contHRes : decodeTableWord 8 0b00010000 = some .contHRes := by decide
theorem test_decode_contHRes2 : decodeTableWord 8 0b00010001 = some .contHRes2 := by decide
theorem test_decode_contLRes : decodeTableWord 8 0b00010011 = some .contLRes := by decide
theorem test_decode_oneHRes : decodeTableWord 8 0b00100000 = some .oneHRes := by decide
theorem test_decode_oneHRes2 : decodeTableWord 8 0b00100001 = some .oneHRes2 := by decide
theorem test_decode_oneLRes : decodeTableWord 8 0b00100011 = some .oneLRes := by decide
theorem test_decode_mtregHi : decodeTableWord 8 0b01000110 = some (.mtregHi 0b110) := by decide
theorem test_decode_mtregLo : decodeTableWord 8 0b01101010 = some (.mtregLo 0b01010) := by decide
theorem test_decode_rsv_rejected : decodeTableWord 32 0x00010023 = none := by decide
theorem test_decode_op_rejected : decodeTableWord 32 0xB0000000 = none := by decide
theorem test_decode_imm_rejected : decodeTableWord 32 0x20000001 = none := by decide
theorem test_decode_byte_rejected : decodeTableWord 8 0x48 = none := by decide

/-! ## The pure functions (95_test_vectors.md 2.2 to 2.8) -/

theorem test_mode_list : [1, 2, 3, 4, 5, 6].map modeList
    = [some 0x20, some 0x21, some 0x23, some 0x10, some 0x11, some 0x13] := by decide
theorem test_sensClamp_low : sensClamp .halfEven 449 = (450, 31) := by decide
theorem test_sensClamp_top : sensClamp .halfEven 3681 = (3681, 254) := by decide
theorem test_sensClamp_high : sensClamp .halfEven 3682 = (3680, 254) := by decide
theorem test_sensClamp_tie_even : sensClamp .halfEven 2500 = (2500, 172) := by decide
theorem test_sensClamp_tie_up : sensClamp .halfUp 2500 = (2500, 173) := by decide
theorem test_mtreg_128 : (mtregHighByte 128, mtregLowByte 128) = (0x44, 0x60) := by decide
theorem test_mtreg_254 : (mtregHighByte 254, mtregLowByte 254) = (0x47, 0x7E) := by decide
theorem test_accClamp_edges : [959, 960, 1440, 1441].map accClamp = [960, 960, 1440, 1440] := by decide
theorem test_wait_1025 : waitTime 0x20 1025 = 123 := by decide
theorem test_wait_low : waitTime 0x13 3681 = 58 := by decide
theorem test_raw_order : (rawCount .highFirst 0x02 0x58, rawCount .lowFirst 0x02 0x58) = (600, 22530) := by decide
theorem test_lux_half : convertLux 12345 1234 2345 5 = 2133060 := by decide
theorem test_lux_third : convertLux 1000 1440 3680 6 = 188707 := by decide

/-! ## One step of each instruction -/

/-- 95_test_vectors.md P1 step 1: the wire trace of INIT. -/
theorem test_init_trace : (goesTo (exec (.init 0x23) (fresh .ok [.ok, .ok, .ok]))).map (·.trace)
    = some [.start 0x23 400000 .ok, .write 0x23 0x00 .ok, .write 0x23 0x42 .ok, .write 0x23 0x65 .ok] := by decide

/-- 95_test_vectors.md P4 step 3: the bus does not start, and the first write fails. -/
theorem test_init_fails : (goesTo (exec (.init 0x23) (fresh .peripheralError [.busError]))).map
    (fun t => (t.inited, t.busStartFail, t.addr, t.rsp)) = some (false, true, 0x23, some ⟨.errBus, 0⟩) := by decide

theorem test_setMode_any_byte : (goesTo (exec (.setMode 0xFF) (booted [.ok] []))).map (fun t => (t.mode, t.res))
    = some (0xFF, 1) := by decide
theorem test_setMode_error : (goesTo (exec (.setMode 0x10) (booted [.busError] []))).map (fun t => (t.mode, t.rsp))
    = some (0x20, some ⟨.errBus, 0⟩) := by decide

theorem test_reset_trace : (goesTo (exec .reset (booted [.ok, .ok] []))).map (fun t => (t.mode, t.trace))
    = some (0x20, [.write 0x23 0x01 .ok, .write 0x23 0x07 .ok]) := by decide
/-- 95_test_vectors.md 2.10, P_RESET_RECORDS_MODE. -/
theorem test_reset_records_mode : (goesTo (exec .reset
    { booted [.ok, .ok] [] with cfg := { defaultConfig with resetRecordsMode := true } })).map (·.mode)
    = some 0x07 := by decide

/-- 95_test_vectors.md P2 step 2. -/
theorem test_setSens_trace : (goesTo (exec (.setSens 2000) (booted [.ok, .ok] []))).map
    (fun t => (t.sens, t.mtreg, t.trace))
    = some (2000, 138, [.write 0x23 0x44 .ok, .write 0x23 0x6A .ok]) := by decide
/-- 95_test_vectors.md 2.9: a failed low half leaves the new pair. -/
theorem test_setSens_error : (goesTo (exec (.setSens 2000) (booted [.ok, .busError] []))).map
    (fun t => (t.sens, t.mtreg, t.rsp)) = some (2000, 138, some ⟨.errBus, 0⟩) := by decide

theorem test_getSens : answer .getSens (booted [] []) = some ⟨.ok, 1000⟩ := by decide
theorem test_getSens_not_initialised : answer .getSens State.reset = some ⟨.errNotInitialised, 0⟩ := by decide
theorem test_setAcc : (goesTo (exec (.setAcc 2000) (booted [] []))).map (fun t => (t.acc, t.trace))
    = some (1440, []) := by decide
theorem test_getAcc : answer .getAcc (booted [] []) = some ⟨.ok, 1200⟩ := by decide
theorem test_setRes : (goesTo (exec (.setRes 6) (booted [] []))).map (fun t => (t.res, t.mode, t.trace))
    = some (6, 0x13, []) := by decide
/-- 95_test_vectors.md 2.10, P_RES_WRITES_BUS. -/
theorem test_setRes_writes_bus : (goesTo (exec (.setRes 2)
    { booted [.busError] [] with cfg := { defaultConfig with resWritesBus := true } })).map
    (fun t => (t.res, t.mode, t.trace)) = some (1, 0x20, [.write 0x23 0x21 .busError]) := by decide
theorem test_getRes : answer .getRes (booted [] []) = some ⟨.ok, 1⟩ := by decide

/-- 95_test_vectors.md P1 step 3. -/
theorem test_getValue : (goesTo (exec .getValue (booted [.ok, .ok, .ok] [.bytes 0x02 0x58]))).map
    (fun t => (t.rsp, t.trace))
    = some (some ⟨.ok, 500000⟩, [.write 0x23 0x01 .ok, .write 0x23 0x07 .ok, .write 0x23 0x20 .ok,
        .sleep 120 120, .read 0x23 (.bytes 0x02 0x58)]) := by decide
/-- 95_test_vectors.md P3 step 6: full scale, halved. -/
theorem test_getValue_full_scale : answer .getValue
    { booted [.ok, .ok, .ok] [.bytes 0xFF 0xFF] with sens := 450, acc := 1440, mode := 0x11, res := 5 }
    = some ⟨.ok, 50567129⟩ := by decide

theorem test_getStatus_fresh : answer .getStatus State.reset = some ⟨.ok, 0⟩ := by decide
theorem test_getStatus_start_failed : answer .getStatus { booted [] [] with busStartFail := true } = some ⟨.ok, 3⟩ := by
  decide

theorem test_powerDown : (goesTo (exec .powerDown (booted [.ok] []))).map (·.trace)
    = some [.write 0x23 0x00 .ok] := by decide
theorem test_mtregLo_failed : (goesTo (exec (.mtregLo 5) (booted [.busError] []))).map (fun t => (t.trace, t.rsp))
    = some ([.write 0x23 0x65 .busError], none) := by decide

/-! ## Steps -/

theorem test_step_runs_word : (goesTo (step ((booted [] []).withFetchWord 32 0x60000000))).map (·.rsp)
    = some (some ⟨.ok, 1200⟩) := by decide
theorem test_step_illegal_word : (goesTo (step (State.reset.withFetchWord 32 0x10000100))).map (·.rsp)
    = some (some ⟨.errIllegalRequest, 0⟩) := by decide
theorem test_step_line : (goesTo (step (accepted (.setMode 0x13) (booted [] [])))).map (·.wire)
    = some (some 0x13) := by decide
/-- 20_memory.md R64: acceptance takes SEQ from IDLE to BUSY. -/
theorem test_step_accepts : (goesTo (step (presented 0x60000000))).map (fun t => (t.seq, t.rsp, t.env.requests))
    = some (.busy .getAcc 0 blankTransient, none, []) := by decide
/-- 10_state.md R32, 42_calibration.md R143: SENS is the first of SET_SENS's register writes, MTREG the second. -/
theorem test_step_counts_writes : (goesTo (step (accepted (.setSens 2000) (booted [] [])))).map
    (fun t => (t.seq, t.sens, t.mtreg)) = some (.busy (.setSens 2000) 1 blankTransient, 2000, 69) := by decide
/-- 43_measurement.md R178 and R179 counted by hand: GET_VALUE's BusRead is its line 5, after three writes, MODE's and
the Sleep, and its respond is line 6. -/
theorem test_step_lines_of_getValue : (program defaultConfig true .getValue).drop 5 = [.busRead, .respond .ok .lux] := by
  decide
/-- 20_memory.md R64: the host may leave a response pending. -/
theorem test_step_holds_response : (goesTo (step (answered 2))).map (fun t => (t.rsp, t.responses, t.env.delays))
    = some (some ⟨.ok, 7⟩, [], [1]) := by decide
theorem test_step_takes_response : (goesTo (step (answered 0))).map (fun t => (t.rsp, t.responses, t.env.delays))
    = some (none, [⟨.ok, 7⟩], []) := by decide

/-! ## Witnesses: the hypotheses of each statement that has some, met by one state and its operands -/

/-- A BUSY state: SET_MODE 0x13 accepted, its byte on the bus port. -/
def sending (writes : List WriteAnswer) : State :=
  { accepted (.setMode 0x13) (booted writes []) with wire := some 0x13 }

/-- A ready block with one request word at the port, to be run whole. -/
def asking (w : Word) : State := (booted [] []).withFetchWord 32 w.toNat

/-- The configuration with both bus parameters set. -/
def otherConfig : Config := { defaultConfig with resWritesBus := true, resetRecordsMode := true }

theorem witness_EncodeOfDecodeIsTheWord : decode (.req 0x300007D0) = .ok (.setSens 2000) := rfl
theorem witness_MatchAndMaskSelectTheOperation : decodeRequest 0x00000023 = .ok (.init 0x23)
    ∧ (0x00000023 : Word) &&& 0xFFFF0000 = 0x00000000 := ⟨rfl, by decide⟩
theorem witness_IllegalRequests : (Ready (asking 0xB0000000) ∧ (asking 0xB0000000).env.requests = [0xB0000000])
    ∧ decodeRequest 0xB0000000 = .error .reservedOp
    ∧ ((0x22 : BitVec 16) ≠ 0x23 ∧ (0x22 : BitVec 16) ≠ 0x5C)
    ∧ (asking 0).inited = true ∧ (0 : BitVec 16).toNat < 1 ∧ 6 < (7 : BitVec 16).toNat :=
  ⟨by decide, rfl, by decide, by decide, by decide, by decide⟩
theorem witness_AssemblerGivesDecodableWords :
    AsmLine.toInstr ⟨.setMode, .num 255⟩ = some (.setMode 255) ∧ 65535 < 65536 ∧ 255 < 256 ∧ 65536 ≤ 65536 ∧ 256 ≤ 256
    ∧ (AsmOp.getStatus, (0xA0000000 : Word)) ∈ ([(.reset, 0x20000000), (.getSens, 0x40000000), (.getAcc, 0x60000000),
      (.getRes, 0x80000000), (.getValue, 0x90000000), (.getStatus, 0xA0000000)] : List (AsmOp × Word))
    ∧ AsmOperand.num 0 ≠ .absent
    ∧ (AsmOp.setAccF, AsmOp.setAcc) ∈ [(AsmOp.setSensF, AsmOp.setSens), (.setAccF, .setAcc)] := by decide
theorem witness_StepRunsTheAcceptedOperation : (Ready (asking 0x40000000)
    ∧ (asking 0x40000000).env.requests = [0x40000000]) ∧ decode (.req 0x40000000) = .ok .getSens
    ∧ (asking 0x40000000).grain = .operation ∧ Ready (presented 0x40000000)
    ∧ (presented 0x40000000).env.requests = [0x40000000] ∧ (presented 0x40000000).grain = .line :=
  ⟨by decide, rfl, by decide, by decide, by decide, by decide⟩
theorem witness_StepRunsTheCommandOnTheBusPort :
    (sending []).wire = some 0x13 ∧ decode (.wire 0x13) = .ok .contLRes := ⟨rfl, rfl⟩
theorem witness_AnyByteOnTheBusPortIsSent : ((booted [.busError] []).withFetchWord 8 0x48).wire = some 0x48
    ∧ ((booted [.busError] []).withFetchWord 8 0x48).seq = .idle
    ∧ ((booted [.busError] []).withFetchWord 8 0x48).env.writes = [.busError] := by decide
theorem witness_IdleBlockGivesItsResponseOrWaits :
    (answered 2).wire = none ∧ (answered 2).seq = .idle ∧ (answered 2).rsp = some ⟨.ok, 7⟩
    ∧ (answered 2).env.delays = [2] ∧ Ready (booted [] []) ∧ (booted [] []).env.requests = [] := by decide
theorem witness_RequestsAreHeldWhileBusyOrPending :
    (accepted .getSens (asking 0x40000000)).seq ≠ .idle ∧ (goesTo (step (accepted .getSens (asking 0x40000000)))).isSome
    ∧ (answered 2).rsp ≠ none ∧ (goesTo (step (answered 2))).isSome := by decide
theorem witness_EachRequestGetsOneResponse :
    Ready (asking 0xF0000000) ∧ (asking 0xF0000000).env.requests = [0xF0000000]
    ∧ Ready (presented 0x40000000) ∧ (presented 0x40000000).env.requests = [0x40000000] := by decide
theorem witness_LineStepsReachTheWholeOperation : ∃ t, Instr.getSens.isRequest = true
    ∧ (booted [] []).wire = none ∧ exec .getSens (booted [] []) = .next t := ⟨_, rfl, rfl, rfl⟩
theorem witness_LineStepsMoveSeq : ∃ t u v, (accepted (.setAcc 0) (booted [] [])).seq = .busy (.setAcc 0) 0 blankTransient
    ∧ step (accepted (.setAcc 0) (booted [] [])) = .next t
    ∧ step (accepted (.setMode 7) (booted [] [])) = .next u ∧ u.wire ≠ none
    ∧ step (accepted .getSens (booted [] [])) = .next v ∧ v.seq = .idle :=
  ⟨_, _, _, rfl, rfl, rfl, by decide, rfl, rfl⟩
theorem witness_StepStopsOnlyPastTheLastLine :
    ({ booted [] [] with seq := .busy .getSens 1 blankTransient } : State).wire = none
    ∧ (program defaultConfig true .getSens).length ≤ 1 := by decide
theorem witness_SoundIsKeptByEveryStep : ∃ t, Sound (asking 0x500003C0) ∧ step (asking 0x500003C0) = .next t
    ∧ t.inited = true := ⟨_, ⟨by decide, by decide, by decide, by decide, by decide⟩, rfl, rfl⟩
theorem witness_SoundIsKeptInAnOperation : ∃ t, Sound (accepted (.setAcc 0) (booted [] []))
    ∧ step (accepted (.setAcc 0) (booted [] [])) = .next t ∧ t.seq ≠ .idle :=
  ⟨_, ⟨by decide, by decide, by decide, by decide, by decide⟩, rfl, by decide⟩
/-- INIT about to write MTREG: INITED is 0, ADDR and SENS are written. -/
theorem witness_SoundIsKeptInInit : ∃ t, Sound { fresh .ok [] with
      addr := 0x5C, sens := 1000, seq := .busy (.init 0x5C) 7 blankTransient }
    ∧ step { fresh .ok [] with
      addr := 0x5C, sens := 1000, seq := .busy (.init 0x5C) 7 blankTransient } = .next t ∧ t.mtreg = 69 :=
  ⟨_, ⟨by decide, by decide, by decide, by decide, by decide⟩, rfl, by decide⟩
theorem witness_ConfigurationIsNeverWritten : ∃ t u, step (asking 0x500003C0) = .next t
    ∧ exec (.setAcc 5) (booted [] []) = .next u := ⟨_, _, rfl, rfl⟩
theorem witness_HistoryOnlyGrows : ∃ t, step (answered 0) = .next t ∧ t.responses = [⟨.ok, 7⟩] := ⟨_, rfl, rfl⟩
theorem witness_RegistersHaveOnlyTheirWriters : ∃ t, exec .reset (booted [.ok, .ok] []) = .next t
    ∧ (∀ a, Instr.reset ≠ .init a) ∧ (∀ f, Instr.reset ≠ .setSens f) ∧ (∀ a, Instr.reset ≠ .setAcc a)
    ∧ (∀ r, Instr.reset ≠ .setRes r) ∧ (∀ m, Instr.reset ≠ .setMode m) ∧ Instr.reset ≠ .getValue
    ∧ (booted [.ok, .ok] []).cfg.resetRecordsMode = false :=
  ⟨_, rfl, nofun, nofun, nofun, nofun, nofun, nofun, rfl⟩
theorem witness_PortsAreOutOfReachOfInstructions : ∃ t, exec .powerOn (sending [.ok]) = .next t := ⟨_, rfl⟩
theorem witness_OperationsReportOnlyTheirErrors : ∃ t, Instr.isRequest (.init 0) = true
    ∧ exec (.init 0) (booted [] []) = .next t ∧ t.rsp.any (fun r => decide (r.status ≠ .ok)) := ⟨_, rfl, rfl, by decide⟩
theorem witness_RejectedOperationsChangeNothing : ∃ t, Instr.isRequest (.setRes 7) = true
    ∧ exec (.setRes 7) (booted [] []) = .next t ∧ t.rsp = some ⟨.errInvalidResolution, 0⟩
    ∧ Status.errInvalidResolution ∈ [Status.errNotInitialised, .errInvalidAddress, .errInvalidResolution] :=
  ⟨_, rfl, rfl, by decide, by decide⟩
theorem witness_NothingFollowsARaisedTransaction : ∃ t, Instr.reset.isRequest = true
    ∧ exec .reset (booted [.ok, .busError] []) = .next t ∧ t.rsp = some ⟨.errBus, 0⟩ := ⟨_, rfl, rfl, by decide⟩
theorem witness_TracesAreFrontPartsOfTheStepList : ∃ t, Instr.reset.isRequest = true
    ∧ exec .reset (booted [.ok, .ok] []) = .next t ∧ t.rsp = some ⟨.ok, 0⟩ := ⟨_, rfl, rfl, by decide⟩
theorem witness_SleepIsNeverShort : ∃ t, exec .getValue (booted [.ok, .ok, .ok] [.busError]) = .next t
    ∧ .sleep 120 120 ∈ newTransactions (booted [.ok, .ok, .ok] [.busError]) t := ⟨_, rfl, by decide⟩
theorem witness_UnknownBytesComeFromSetMode : ∃ t, exec (.setMode 0x48) (booted [.ok] []) = .next t
    ∧ .write 0x23 0x48 .ok ∈ newTransactions (booted [.ok] []) t := ⟨_, rfl, by decide⟩
theorem witness_PowerOnReset : Instr.getValue.isRequest = true ∧ (∀ a, Instr.getValue ≠ .init a)
    ∧ Instr.getValue ≠ .getStatus ∧ (booted [] []).env.requests = [] := ⟨rfl, nofun, nofun, rfl⟩
theorem witness_NotInitialisedComesBeforeTheOperandCheck : Instr.isRequest (.setRes 7) = true
    ∧ (∀ a, Instr.setRes 7 ≠ .init a) ∧ Instr.setRes 7 ≠ .getStatus ∧ State.reset.inited = false :=
  ⟨rfl, nofun, nofun, rfl⟩
theorem witness_SuccessfulInitLeavesTheDefaults :
    ∃ t, exec (.init 0x5C) (fresh .peripheralError [.ok, .ok, .ok]) = .next t ∧ t.rsp = some ⟨.ok, 0⟩ :=
  ⟨_, rfl, by decide⟩
theorem witness_InitCompletes : (fresh .ok [.ok, .ok, .ok]).env.starts = [.ok]
    ∧ (fresh .ok [.ok, .ok, .ok]).env.writes
      = [.ok, .ok, .ok] ++ (if (fresh .ok [.ok, .ok, .ok]).cfg.resWritesBus then [.ok] else []) ++ [] := by decide
theorem witness_InitStopsAtAFailedWrite : (fresh .ok [.busError]).env.starts = [.ok]
    ∧ (fresh .ok [.busError]).env.writes = [.busError]
    ∧ (fresh .ok [.ok, .busError]).env.writes = [.ok, .busError]
    ∧ (fresh .ok [.ok, .ok, .busError]).env.writes = [.ok, .ok, .busError]
    ∧ ({ fresh .ok [.ok, .ok, .ok, .busError] with cfg := otherConfig } : State).cfg.resWritesBus = true
    ∧ ({ fresh .ok [.ok, .ok, .ok, .busError] with cfg := otherConfig } : State).env.writes
      = [.ok, .ok, .ok, .busError] := by decide
theorem witness_InitRejectsOtherAddresses :
    (0x22 : BitVec 16) ≠ 0x23 ∧ (0x22 : BitVec 16) ≠ 0x5C ∧ (0xA3 : BitVec 16) ≠ 0x23 := by decide
theorem witness_oneWriteAccepted : (booted [.ok] []).inited = true ∧ (booted [.ok] []).env.writes = [.ok] := by decide
theorem witness_oneWriteFails :
    (booted [.busError] []).inited = true ∧ (booted [.busError] []).env.writes = [.busError] := by decide
theorem witness_UnscriptedAnswersAreFree : (booted [] []).inited = true ∧ (booted [] []).env.writes = [] := by decide
theorem witness_twoWritesAccepted :
    (booted [.ok, .ok] []).inited = true ∧ (booted [.ok, .ok] []).env.writes = [.ok, .ok] := by decide
theorem witness_secondWriteFails :
    (booted [.ok, .busError] []).inited = true ∧ (booted [.ok, .busError] []).env.writes = [.ok, .busError] := by
  decide
theorem witness_SetResCompletes : (booted [] []).inited = true
    ∧ ((6 : BitVec 16), (0x13 : Byte), (6 : BitVec 3)) ∈ ([(1, 0x20, 1), (2, 0x21, 2), (3, 0x23, 3), (4, 0x10, 4),
      (5, 0x11, 5), (6, 0x13, 6)] : List (BitVec 16 × Byte × BitVec 3))
    ∧ (booted [] []).env.writes = (if (booted [] []).cfg.resWritesBus then [.ok] else []) ++ [] := by decide
theorem witness_SetResRejectsOtherIndices :
    (booted [] []).inited = true ∧ (0 : BitVec 16).toNat < 1 ∧ 6 < (7 : BitVec 16).toNat := by decide
theorem witness_SetResFailureKeepsModeAndRes :
    ({ booted [.busError] [] with cfg := otherConfig } : State).inited = true
    ∧ ({ booted [.busError] [] with cfg := otherConfig } : State).cfg.resWritesBus = true
    ∧ 1 ≤ (1 : BitVec 16).toNat ∧ (6 : BitVec 16).toNat ≤ 6
    ∧ ({ booted [.busError] [] with cfg := otherConfig } : State).env.writes = [.busError] := by decide
theorem witness_ReadsAnswerTheStoredRegister : (booted [] []).inited = true := by decide
theorem witness_GetResReturnsTheIndexSet : ∃ t u v, exec (.setRes 5) (booted [.ok] []) = .next t
    ∧ t.rsp = some ⟨.ok, 0⟩ ∧ exec (.setMode 0x20) t = .next u ∧ exec .getRes u = .next v :=
  ⟨_, _, _, rfl, by decide, rfl, rfl⟩
theorem witness_SensClampHasThreeBands : (449 : Code).toNat ≤ 449 ∧ 3682 ≤ (3682 : Code).toNat
    ∧ 450 ≤ (450 : Code).toNat ∧ (3681 : Code).toNat ≤ 3681 ∧ (449 : Code).toNat = 449 := by decide
theorem witness_RoundTieRoundsToNearest : 1000 < 2 * (34501 % 1000) ∧ 2 * (34499 % 1000) < 1000
    ∧ 2 * (34500 % 1000) = 1000 ∧ 450 ≤ 451 ∧ 451 * 69 % 1000 ≠ 500 := by decide
theorem witness_AccClampSnapsToTheBoundary : (959 : Code).toNat < 960 ∧ 1440 < (1441 : Code).toNat
    ∧ 960 ≤ (960 : Code).toNat ∧ (1440 : Code).toNat ≤ 1440 := by decide
theorem witness_WaitIsTheFloorAndInRange : 450 ≤ (1025 : Code).toNat ∧ (2050 : Code).toNat ≤ 3681
    ∧ (0x13 : Byte) &&& 0x03 = 0x03 ∧ (0x20 : Byte) &&& 0x03 ≠ 0x03 := by decide
theorem witness_LuxIsTheFlooredQuotient : 960 ≤ (960 : Code).toNat ∧ (1440 : Code).toNat ≤ 1440
    ∧ 450 ≤ (450 : Code).toNat ∧ (3681 : Code).toNat ≤ 3681 ∧ ((5 : BitVec 3) = 2 ∨ (5 : BitVec 3) = 5) := by decide
theorem witness_LuxIsBoundedWithoutAClamp : 960 ≤ (1440 : Code).toNat ∧ (960 : Code).toNat ≤ 1440
    ∧ 450 ≤ (3681 : Code).toNat ∧ (450 : Code).toNat ≤ 3681 ∧ (1 : BitVec 16) ≠ 0 := by decide
theorem witness_GetValueCompletes : (booted [.ok, .ok, .ok] [.bytes 2 0x58]).inited = true
    ∧ Calibrated (booted [.ok, .ok, .ok] [.bytes 2 0x58])
    ∧ (booted [.ok, .ok, .ok] [.bytes 2 0x58]).env.writes = [.ok, .ok, .ok]
    ∧ (booted [.ok, .ok, .ok] [.bytes 2 0x58]).env.reads = [.bytes 2 0x58]
    ∧ (booted [.ok, .ok, .ok] [.bytes 2 0x58]).env.lateness = [0] := by decide
theorem witness_GetValueStopsAtAFailedTransaction :
    (booted [.ok, .ok, .busError] []).inited = true
    ∧ (booted [.ok, .ok, .busError] []).env.writes = [.ok, .ok, .busError]
    ∧ (booted [.ok, .ok, .ok] [.busError]).env.writes = [.ok, .ok, .ok]
    ∧ (booted [.ok, .ok, .ok] [.busError]).env.reads = [.busError]
    ∧ (booted [.ok, .ok, .ok] [.busError]).env.lateness = [0] := by decide
theorem witness_LuxDoesNotDependOnMode : ∃ t u,
    exec .getValue (booted [.ok, .ok, .ok] [.bytes 2 0x58]) = .next t
    ∧ exec .getValue { booted [.ok, .ok, .ok] [.bytes 2 0x58] with mode := 0x13 } = .next u := ⟨_, _, rfl, rfl⟩
theorem witness_CommandByteIsOneBusWrite : encode (.mtregHi 7) = .wire 0x47 ∧ (booted [.ok] []).seq = .idle
    ∧ (booted [.ok] []).env.writes = [.ok] := by decide
theorem witness_CommandByteAdvancesOrEndsTheOperation : encode .contLRes = .wire 0x13
    ∧ (sending [.ok]).seq = .busy (.setMode 0x13) 0 blankTransient ∧ (sending [.ok]).env.writes = [.ok]
    ∧ (sending [.busError]).env.writes = [.busError] := by decide

end Sys2Proof.Tests
end

/-!
PROOFS. The state family of 10_state.md: no operation writes the configuration (R31), and the registers after an INIT
that answers OK (R39).
-/

namespace Sys2Proof.Machine

open Sys2Proof.Safety

/-! ## What an instruction keeps, and what a step can do -/

theorem runOperation_keeps (i : Instr) (lines : List Line) (s : State) : Keeps s (runOperation i lines s) :=
  (accepted_keeps i s).trans (runLines_keeps _ _ _)

theorem exec_keeps {i : Instr} {s t : State} (h : exec i s = .next t) : Keeps s t := by
  rcases isRequest_or_command i with request | ⟨b, command⟩
  · cases (exec_request request s).symm.trans h
    exact runOperation_keeps _ _ _
  · cases (exec_command command s).symm.trans h
    exact sendCommand_keeps _ _

/-- What a step that goes on can be, guards included (20_memory.md R64): one constructor for each thing the block can
do next. -/
inductive StepsTo (s t : State) : Prop where
  | sendsKnown (b : Byte) (i : Instr) (port : s.wire = some b) (known : decodeWire b = .ok i)
      (ran : exec i { s with wire := none } = .next t)
  | sendsUnknown (b : Byte) (e : DecodeError) (port : s.wire = some b) (unknown : decodeWire b = .error e)
      (sent : t = sendCommand b { s with wire := none })
  | advances (op : Instr) (k : Nat) (tmp : Transient) (port : s.wire = none) (busy : s.seq = .busy op k tmp)
      (advanced : advance op k tmp s = .next t)
  | holdsOrTakes (r : Response) (port : s.wire = none) (idle : s.seq = .idle) (pending : s.rsp = some r)
      (held : t = holdOrTake r s)
  | waits (ready : Ready s) (noRequest : s.env.requests = []) (same : t = s)
  | answersIllegal (w : Word) (rest : List Word) (e : DecodeError) (ready : Ready s)
      (request : s.env.requests = w :: rest) (illegal : decodeRequest w = .error e)
      (answered : t = respond .errIllegalRequest 0 { s with env := { s.env with requests := rest } })
  | accepts (w : Word) (rest : List Word) (i : Instr) (ready : Ready s) (request : s.env.requests = w :: rest)
      (legal : decodeRequest w = .ok i) (byLine : s.grain = .line)
      (taken : t = accepted i { s with env := { s.env with requests := rest } })
  | runsWhole (w : Word) (rest : List Word) (i : Instr) (ready : Ready s) (request : s.env.requests = w :: rest)
      (legal : decodeRequest w = .ok i) (whole : s.grain = .operation)
      (ran : exec i { s with env := { s.env with requests := rest } } = .next t)

theorem stepsTo_of_step_busPort {s t : State} {b : Byte} (port : s.wire = some b) (h : step s = .next t) :
    StepsTo s t := by
  cases decoded : decodeWire b with
  | ok i => exact .sendsKnown b i port decoded (step_wire_known port decoded ▸ h)
  | error e =>
    rw [step_wire_unknown port decoded] at h
    cases h
    exact .sendsUnknown b e port decoded rfl

theorem stepsTo_of_step_request {s t : State} {w : Word} {rest : List Word} (ready : Ready s)
    (request : s.env.requests = w :: rest) (h : step s = .next t) : StepsTo s t := by
  obtain ⟨port, idle, free⟩ := ready
  cases decoded : decodeRequest w with
  | error e =>
    rw [step_illegal port idle free request decoded] at h
    cases h
    exact .answersIllegal w rest e ⟨port, idle, free⟩ request decoded rfl
  | ok i =>
    cases size : s.grain with
    | line =>
      rw [step_accept size port idle free request decoded] at h
      cases h
      exact .accepts w rest i ⟨port, idle, free⟩ request decoded size rfl
    | operation =>
      rw [step_accept_whole size port idle free request decoded] at h
      exact .runsWhole w rest i ⟨port, idle, free⟩ request decoded size h

/-- The inversion of `step`, in the order in which `nextAction` looks: bus port, SEQ, response, request port. -/
theorem stepsTo_of_step {s t : State} (h : step s = .next t) : StepsTo s t := by
  cases port : s.wire with
  | some b => exact stepsTo_of_step_busPort port h
  | none =>
    cases seq : s.seq with
    | busy op k tmp => exact .advances op k tmp port seq (step_busy port seq ▸ h)
    | idle =>
      cases pending : s.rsp with
      | some r =>
        rw [step_pending port seq pending] at h
        cases h
        exact .holdsOrTakes r port seq pending rfl
      | none =>
        cases requests : s.env.requests with
        | nil =>
          rw [step_waits port seq pending requests] at h
          cases h
          exact .waits ⟨port, seq, pending⟩ requests rfl
        | cons w rest => exact stepsTo_of_step_request ⟨port, seq, pending⟩ requests h

/-! ## The configuration -/

theorem advance_cfg {op : Instr} {k : Nat} {tmp : Transient} {s t : State} (h : advance op k tmp s = .next t) :
    t.cfg = s.cfg := by
  rcases advance_cases h with ⟨src, -, rfl⟩ | ⟨l, tmp', s', -, -, ran, rfl⟩ | ⟨l, -, -, ended⟩
  · rfl
  · exact (runLine_goesOn ran).1.cfg
  · exact (runLine_ended_responds ended).1.cfg

theorem holdOrTake_cfg (r : Response) (s : State) : (holdOrTake r s).cfg = s.cfg := by
  rcases holdOrTake_cases r s with ⟨-, h⟩ | ⟨n, -, h⟩ <;> rw [h]
  rfl

theorem step_cfg {s t : State} (h : step s = .next t) : t.cfg = s.cfg := by
  cases stepsTo_of_step h with
  | sendsKnown b i _ _ ran => exact (exec_keeps ran).cfg
  | sendsUnknown b e _ _ sent => exact sent ▸ (sendCommand_keeps b _).cfg
  | advances op k tmp _ _ advanced => exact advance_cfg advanced
  | holdsOrTakes r _ _ _ held => exact held ▸ holdOrTake_cfg r s
  | waits _ _ same => rw [same]
  | answersIllegal _ _ _ _ _ _ answered => rw [answered, respond_cfg]
  | accepts _ _ _ _ _ _ _ taken => rw [taken, accepted_cfg]
  | runsWhole _ _ _ _ _ _ _ ran => exact (exec_keeps ran).cfg

/-- Settles O17: every thing a step can do keeps the configuration, and so does every instruction. -/
theorem configurationIsNeverWritten : Obligations.ConfigurationIsNeverWritten :=
  ⟨fun _ _ => step_cfg, fun _ _ _ h => (exec_keeps h).cfg⟩

/-! ## Lines of an operation that answers OK

A BusWrite that raises answers ERR_BUS, so in an operation that answers OK every procedure ran to its end. The
operation goes on with `rest`. -/

section AnswersOk

variable {s : State} {tmp : Transient} {rest : List Line} {d : Word}

theorem runLines_busWrite_of_answersOk {src : ByteSource}
    (ok : (runLines (.busWrite src :: rest) tmp s).rsp = some ⟨.ok, d⟩) :
    runLines (.busWrite src :: rest) tmp s = runLines rest tmp (busWrite (byteOf src tmp s) s) := by
  cases answer : nextWrite s with
  | ok => exact runLines_busWrite_ok answer src rest tmp
  | busError =>
    rw [runLines_busWrite_error answer] at ok
    cases ok

/-- SetModeProc(m) (41_mode.md R120). -/
theorem runLines_setModeProc_of_answersOk {b : Byte}
    (ok : (runLines (setModeProc (.const b) ++ rest) tmp s).rsp = some ⟨.ok, d⟩) :
    runLines (setModeProc (.const b) ++ rest) tmp s = runLines rest tmp { busWrite b s with mode := b } :=
  runLines_busWrite_of_answersOk ok

/-- SetSensProc(f) (42_calibration.md R142, R143). -/
theorem runLines_setSensProc_of_answersOk {f : Code}
    (ok : (runLines (setSensProc f ++ rest) tmp s).rsp = some ⟨.ok, d⟩) :
    ∃ high low, runLines (setSensProc f ++ rest) tmp s = runLines rest tmp (busWrite low (busWrite high
      { s with sens := (sensClamp s.cfg.mtregTie f).1, mtreg := (sensClamp s.cfg.mtregTie f).2 })) := by
  have first := runLines_busWrite_of_answersOk (src := .mtregHigh) (rest := .busWrite .mtregLow :: rest) ok
  have second := runLines_busWrite_of_answersOk (src := .mtregLow) (rest := rest) (first ▸ ok)
  exact ⟨_, _, first.trans second⟩

/-- SetResProc(1), the P_RES_WRITES_BUS variant included (41_mode.md R126). -/
theorem runLines_setResProc_default_of_answersOk {cfg : Config}
    (ok : (runLines (setResProc cfg resDefault ++ rest) tmp s).rsp = some ⟨.ok, d⟩) :
    ∃ u, (u = s ∨ u = busWrite 0x20 s)
      ∧ runLines (setResProc cfg resDefault ++ rest) tmp s = runLines rest tmp { u with mode := 0x20, res := 1 } := by
  simp only [setResProc, modeList_default] at ok ⊢
  cases bus : cfg.resWritesBus with
  | false => exact ⟨s, .inl rfl, rfl⟩
  | true =>
    rw [bus] at ok
    exact ⟨_, .inr rfl, runLines_setModeProc_of_answersOk (rest := .writeRes 1 :: rest) ok⟩

end AnswersOk

/-! ## INIT -/

/-- What InitProc() leaves when none of its writes raises (40_construction.md R101): the calibration defaults, ADDR and
the configuration as they were, and the answer of its one BusStart recorded. -/
structure Constructed (s u : State) : Prop where
  addr : u.addr = s.addr
  sens : u.sens = 1000
  mtreg : u.mtreg = 69
  acc : u.acc = 1200
  mode : u.mode = 0x20
  res : u.res = 1
  startFail : u.busStartFail = true ↔ ∃ a hz, .start a hz .peripheralError ∈ newTransactions s u

theorem runLines_initProc_of_answersOk {s : State} {tmp : Transient} {rest : List Line} {d : Word} {cfg : Config}
    (ok : (runLines (initProc cfg ++ rest) tmp s).rsp = some ⟨.ok, d⟩) :
    ∃ tmp' u, runLines (initProc cfg ++ rest) tmp s = runLines rest tmp' u ∧ Constructed s u := by
  have opened : runLines (initProc cfg ++ rest) tmp s
      = runLines (setModeProc (.const cmdPowerDown) ++ (setSensProc sensDefault ++ (setAccProc accDefault
          ++ (setResProc cfg resDefault ++ rest))))
        { tmp with startFailed := decide (nextStart s = .peripheralError) }
        { busStart s with busStartFail := decide (nextStart s = .peripheralError) } := by
    simp [initProc, List.append_assoc, runLines_cons, runLine]
  rw [opened] at ok ⊢
  have powered := runLines_setModeProc_of_answersOk ok
  rw [powered] at ok ⊢
  obtain ⟨high, low, calibrated⟩ := runLines_setSensProc_of_answersOk ok
  rw [calibrated] at ok ⊢
  obtain ⟨u, port, resolved⟩ := runLines_setResProc_default_of_answersOk ok
  refine ⟨_, _, resolved, ?_⟩
  constructor
  case startFail => rcases port with rfl | rfl <;> simp [newTransactions, eq_comm]
  all_goals rcases port with rfl | rfl <;> simp [sensClamp_default, accClamp_default]

/-- The two register writes before InitProc() (40_construction.md R100). -/
def initEntered (addr : BitVec 16) (s : State) : State :=
  { accepted (.init addr) s with inited := false, addr := addr.extractLsb' 0 7 }

theorem runOperation_init_legal {addr : BitVec 16} (legal : addrLegal addr = true) (s : State) :
    runOperation (.init addr) (initLines s.cfg addr) s
      = runLines (initProc s.cfg ++ [.writeInited true, .respond .ok .zero]) blankTransient (initEntered addr s) := by
  rw [initLines, if_pos legal]
  rfl

theorem runOperation_init_illegal {addr : BitVec 16} (illegal : ¬ addrLegal addr = true) (s : State) :
    runOperation (.init addr) (initLines s.cfg addr) s
      = respond .errInvalidAddress 0 (accepted (.init addr) s) := by
  rw [initLines, if_neg illegal]
  rfl

/-- INIT answers OK only for a legal address and after its whole step list (40_construction.md R100). -/
theorem exec_init_answersOk {s t : State} {addr : BitVec 16} {d : Word} (h : exec (.init addr) s = .next t)
    (ok : t.rsp = some ⟨.ok, d⟩) :
    addrLegal addr = true
      ∧ ∃ u, Constructed (initEntered addr s) u ∧ t = respond .ok 0 { u with inited := true } := by
  cases h
  by_cases legal : addrLegal addr = true
  · rw [runOperation_init_legal legal] at ok ⊢
    obtain ⟨tmp, u, ran, constructed⟩ := runLines_initProc_of_answersOk ok
    exact ⟨legal, u, constructed, ran⟩
  · rw [runOperation_init_illegal legal] at ok
    cases ok

/-- ADDR keeps the whole value of a legal address. -/
theorem toNat_extractLsb'_of_addrLegal {addr : BitVec 16} (legal : addrLegal addr = true) :
    (addr.extractLsb' 0 7).toNat = addr.toNat := by
  rcases (addrLegal_iff addr).mp legal with rfl | rfl <;> rfl

/-- Settles O29: an INIT that answers OK ran InitProc() to its end, from whatever state it was accepted in. -/
theorem successfulInitLeavesTheDefaults : Obligations.SuccessfulInitLeavesTheDefaults := by
  intro s t addr d h ok
  obtain ⟨legal, u, ⟨address, sens, mtreg, acc, mode, res, startFail⟩, rfl⟩ := exec_init_answersOk h ok
  have requested : u.addr.toNat = addr.toNat :=
    (congrArg BitVec.toNat address).trans (toNat_extractLsb'_of_addrLegal legal)
  exact ⟨rfl, requested, sens, mtreg, acc, mode, res, rfl, startFail⟩

end Sys2Proof.Machine

/-!
PROOFS. The memory family of 20_memory.md: the raw count of a read (R55).
-/

namespace Sys2Proof.Machine

/-! ## The raw count -/

/-- RAW_BYTE_ORDER only swaps the two bytes, so what holds of one order holds of the other. -/
theorem rawCount_lowFirst (b0 b1 : Byte) : rawCount .lowFirst b0 b1 = rawCount .highFirst b1 b0 := rfl

/-- The sum always fits its 16 bits: nothing of the count is cut off. -/
theorem toNat_rawCount_highFirst (high low : Byte) :
    (rawCount .highFirst high low).toNat = low.toNat + 256 * high.toNat :=
  Nat.mod_eq_of_lt (by omega)

/-- RAW = (high, low): the sum of the two bytes is their concatenation. -/
theorem rawCount_highFirst_eq_append (high low : Byte) : rawCount .highFirst high low = high ++ low := by
  apply BitVec.eq_of_toNat_eq
  rw [toNat_rawCount_highFirst, BitVec.toNat_append, ← Nat.shiftLeft_add_eq_or_of_lt low.isLt, Nat.shiftLeft_eq]
  omega

theorem highByte_rawCount_highFirst (high low : Byte) : (rawCount .highFirst high low).extractLsb' 8 8 = high := by
  rw [rawCount_highFirst_eq_append]
  exact BitVec.extractLsb'_append_eq_left

theorem lowByte_rawCount_highFirst (high low : Byte) : (rawCount .highFirst high low).extractLsb' 0 8 = low := by
  rw [rawCount_highFirst_eq_append]
  exact BitVec.extractLsb'_append_eq_right

/-- Settles O53: the low-first count is the high-first count of the swapped bytes, and that one is their
concatenation. -/
theorem rawCountIsLowPlus256High : Obligations.RawCountIsLowPlus256High := by
  intro b0 b1
  rw [rawCount_lowFirst]
  exact ⟨toNat_rawCount_highFirst b0 b1, toNat_rawCount_highFirst b1 b0,
    highByte_rawCount_highFirst b0 b1, lowByte_rawCount_highFirst b0 b1,
    highByte_rawCount_highFirst b1 b0, lowByte_rawCount_highFirst b1 b0, rfl⟩

end Sys2Proof.Machine

/-!
PROOFS. The encoding family of 30_encoding.md: the match and mask table (R75) and the two MTreg command bytes (R80).
-/

namespace Sys2Proof

/-! ## The rows of the table, by op -/

/-- The ops of the eleven operations (30_encoding.md R72). -/
def definedOps : List (BitVec 4) := [0x0, 0x1, 0x2, 0x3, 0x4, 0x5, 0x6, 0x7, 0x8, 0x9, 0xA]

theorem mem_definedOps_iff : ∀ op : BitVec 4, op ∈ definedOps ↔ op.toNat ≤ 0xA := by decide

/-- The row of an op in the match and mask table: the word with that op and nothing else, under a mask of op, rsv and
the imm bits that must be zero (30_encoding.md R72, R75). -/
def opRow (op : BitVec 4) : Word × Word :=
  (packRequest op 0, 0xFFFF0000 ||| (immMustBeZero op).setWidth 32)

theorem opField_and (w v : Word) : opField (w &&& v) = opField w &&& opField v := BitVec.extractLsb'_and

theorem rsvField_and (w v : Word) : rsvField (w &&& v) = rsvField w &&& rsvField v := BitVec.extractLsb'_and

theorem immField_and (w v : Word) : immField (w &&& v) = immField w &&& immField v := BitVec.extractLsb'_and

theorem opField_opRow_mask (op : BitVec 4) : opField (opRow op).2 = BitVec.allOnes 4 := by revert op; decide

theorem rsvField_opRow_mask (op : BitVec 4) : rsvField (opRow op).2 = BitVec.allOnes 12 := by revert op; decide

theorem immField_opRow_mask (op : BitVec 4) : immField (opRow op).2 = immMustBeZero op := by revert op; decide

theorem eq_packRequest_iff {w : Word} {op : BitVec 4} {imm : BitVec 16} :
    w = packRequest op imm ↔ opField w = op ∧ rsvField w = 0 ∧ immField w = imm := by
  constructor
  · rintro rfl
    simp only [opField_packRequest, rsvField_packRequest, immField_packRequest, and_self]
  · rintro ⟨rfl, reserved, rfl⟩
    exact (packRequest_fields reserved).symm

/-- Matching a row, field by field: the mask keeps op and rsv whole, and of imm the bits that must be zero. -/
theorem and_opRow_mask_eq_iff {w : Word} {op : BitVec 4} :
    w &&& (opRow op).2 = (opRow op).1
      ↔ opField w = op ∧ rsvField w = 0 ∧ immField w &&& immMustBeZero op = 0 := by
  have hop : opField (w &&& (opRow op).2) = opField w := by
    rw [opField_and, opField_opRow_mask, BitVec.and_allOnes]
  have hrsv : rsvField (w &&& (opRow op).2) = rsvField w := by
    rw [rsvField_and, rsvField_opRow_mask, BitVec.and_allOnes]
  have himm : immField (w &&& (opRow op).2) = immField w &&& immMustBeZero op := by
    rw [immField_and, immField_opRow_mask]
  rw [show (opRow op).1 = packRequest op 0 from rfl, eq_packRequest_iff, hop, hrsv, himm]

theorem legalRequest_iff {w : Word} :
    legalRequest w = true ↔ (opField w).toNat ≤ 0xA ∧ rsvField w = 0
      ∧ immField w &&& immMustBeZero (opField w) = 0 := by
  simp only [legalRequest, opDefined, rsvZero, immZeroWhereDue, Bool.and_eq_true, decide_eq_true_eq, and_assoc]

/-! ## The decoder, by op -/

theorem setWidth_and_highMask (m : Byte) : m.setWidth 16 &&& 0xFF00 = 0 := by revert m; decide

/-- SET_MODE's check, as the decoder makes it and as R74 states it. -/
theorem and_highMask_eq_zero_iff {imm : BitVec 16} : imm &&& 0xFF00 = 0 ↔ imm.extractLsb' 8 8 = 0 := by
  constructor
  · intro h
    have high := congrArg (BitVec.extractLsb' 8 8) h
    rwa [BitVec.extractLsb'_and, show BitVec.extractLsb' 8 8 (0xFF00 : BitVec 16) = BitVec.allOnes 8 by decide,
      BitVec.and_allOnes] at high
  · intro h
    rw [← setWidth_lowByte h, setWidth_and_highMask]

theorem and_fullMask_eq_zero_iff {imm : BitVec 16} : imm &&& 0xFFFF = 0 ↔ imm = 0 := by
  rw [show imm &&& 0xFFFF = imm from BitVec.and_allOnes]

/-- The defined ops by what they take: a whole imm, a byte (SET_MODE), or nothing (30_encoding.md R72). -/
theorem defined_cases : ∀ op : BitVec 4, op.toNat ≤ 0xA →
    (op = 0x0 ∨ op = 0x3 ∨ op = 0x5 ∨ op = 0x7) ∨ op = 0x1
      ∨ (op = 0x2 ∨ op = 0x4 ∨ op = 0x6 ∨ op = 0x8 ∨ op = 0x9 ∨ op = 0xA) := by
  decide

/-- What the decoder does at a defined op: it checks the imm bits of that op, and what passes has the op's row. -/
theorem decodeOp_of_defined {op : BitVec 4} (defined : op.toNat ≤ 0xA) (imm : BitVec 16) :
    ∃ i : Instr, i.row = .req (opRow op).1 (opRow op).2
      ∧ decodeOp op imm = if imm &&& immMustBeZero op = 0 then .ok i else .error .operandBits := by
  rcases defined_cases op defined with (rfl | rfl | rfl | rfl) | rfl | (rfl | rfl | rfl | rfl | rfl | rfl)
  iterate 4 exact ⟨_, rfl, (if_pos BitVec.and_zero).symm⟩
  · exact ⟨.setMode _, rfl, (if_congr and_highMask_eq_zero_iff rfl rfl).symm⟩
  iterate 6 exact ⟨_, rfl, (if_congr and_fullMask_eq_zero_iff rfl rfl).symm⟩

/-- A word that decodes is legal, and what it decodes to has the row of the word's op. -/
theorem legal_and_row_of_decodeRequest {w : Word} {i : Instr} (h : decodeRequest w = .ok i) :
    legalRequest w = true ∧ i.row = .req (opRow (opField w)).1 (opRow (opField w)).2 := by
  obtain ⟨reserved, decoded⟩ := decodeRequest_ok h
  have defined : (opField w).toNat ≤ 0xA := by
    rw [← packRequest_fields reserved, decodeRequest_packRequest] at h
    split at h
    · cases h
    · omega
  obtain ⟨j, row, decodes⟩ := decodeOp_of_defined defined (immField w)
  rw [decodes] at decoded
  split at decoded
  case isTrue himm =>
    cases decoded
    exact ⟨legalRequest_iff.mpr ⟨defined, reserved, himm⟩, row⟩
  case isFalse => cases decoded

theorem decodes_of_legalRequest {w : Word} (legal : legalRequest w = true) : ∃ i, decodeRequest w = .ok i := by
  obtain ⟨defined, reserved, himm⟩ := legalRequest_iff.mp legal
  obtain ⟨i, -, decodes⟩ := decodeOp_of_defined defined (immField w)
  refine ⟨i, ?_⟩
  rw [← packRequest_fields reserved, decodeRequest_packRequest, if_neg (by omega), decodes, if_pos himm]

theorem legalRequest_iff_decodes {w : Word} : legalRequest w = true ↔ ∃ i, decodeRequest w = .ok i :=
  ⟨decodes_of_legalRequest, fun ⟨_, h⟩ => (legal_and_row_of_decodeRequest h).1⟩

theorem row_selects_of_decodeRequest {w : Word} {i : Instr} (h : decodeRequest w = .ok i) :
    i.row.selects (.req w) = true := by
  obtain ⟨legal, row⟩ := legal_and_row_of_decodeRequest h
  obtain ⟨-, reserved, himm⟩ := legalRequest_iff.mp legal
  rw [row]
  exact decide_eq_true (and_opRow_mask_eq_iff.mpr ⟨rfl, reserved, himm⟩)

/-! ## The table -/

/-- The table of R75, in the rule's order. -/
def opRows : List (Word × Word) := definedOps.map opRow

theorem mem_opRows_iff {r : Word × Word} : r ∈ opRows ↔ ∃ op : BitVec 4, op.toNat ≤ 0xA ∧ opRow op = r := by
  simp only [opRows, List.mem_map, mem_definedOps_iff]

/-- The checks of R74 are the match of one row, that of the word's own op. -/
theorem legalRequest_iff_matches_row {w : Word} : legalRequest w = true ↔ ∃ r ∈ opRows, w &&& r.2 = r.1 := by
  rw [legalRequest_iff]
  constructor
  · rintro ⟨defined, reserved, himm⟩
    exact ⟨opRow (opField w), mem_opRows_iff.mpr ⟨_, defined, rfl⟩,
      and_opRow_mask_eq_iff.mpr ⟨rfl, reserved, himm⟩⟩
  · rintro ⟨r, mem, matched⟩
    obtain ⟨op, defined, rfl⟩ := mem_opRows_iff.mp mem
    obtain ⟨rfl, reserved, himm⟩ := and_opRow_mask_eq_iff.mp matched
    exact ⟨defined, reserved, himm⟩

theorem eq_of_matches_rows {w : Word} {r r' : Word × Word} (mem : r ∈ opRows) (mem' : r' ∈ opRows)
    (matched : w &&& r.2 = r.1) (matched' : w &&& r'.2 = r'.1) : r = r' := by
  obtain ⟨op, -, rfl⟩ := mem_opRows_iff.mp mem
  obtain ⟨op', -, rfl⟩ := mem_opRows_iff.mp mem'
  obtain ⟨rfl, -, -⟩ := and_opRow_mask_eq_iff.mp matched
  obtain ⟨rfl, -, -⟩ := and_opRow_mask_eq_iff.mp matched'
  rfl

/-- Settles O3: matching a row is having its op, a zero rsv and zero imm bits where due, so the row a word matches is
that of its op, and what decodes has just that row. -/
theorem matchAndMaskSelectTheOperation : Obligations.MatchAndMaskSelectTheOperation := by
  unfold Obligations.MatchAndMaskSelectTheOperation
  intro rows
  have table : rows = opRows := by decide
  refine ⟨fun imm m => rfl, ?_⟩
  rw [table]
  exact ⟨fun w => ⟨legalRequest_iff_matches_row, legalRequest_iff_decodes⟩,
    fun w r mem r' mem' => eq_of_matches_rows mem mem', fun w i => row_selects_of_decodeRequest⟩

end Sys2Proof

namespace Sys2Proof.Machine

/-! ## The MTreg halves -/

theorem toNat_packMtregHi (h : BitVec 3) : (packMtregHi h).toNat = 0x40 + h.toNat := by revert h; decide

theorem toNat_packMtregLo (l : BitVec 5) : (packMtregLo l).toNat = 0x60 + l.toNat := by revert l; decide

theorem mtregHighByte_eq_packMtregHi (mt : Byte) : mtregHighByte mt = packMtregHi (mt.extractLsb' 5 3) := rfl

theorem mtregLowByte_eq_packMtregLo (mt : Byte) : mtregLowByte mt = packMtregLo (mt.extractLsb' 0 5) := rfl

theorem toNat_mtregHighByte (mt : Byte) : (mtregHighByte mt).toNat = 0x40 + mt.toNat / 32 := by
  rw [mtregHighByte_eq_packMtregHi, toNat_packMtregHi, BitVec.extractLsb'_toNat, Nat.shiftRight_eq_div_pow]
  omega

theorem toNat_mtregLowByte (mt : Byte) : (mtregLowByte mt).toNat = 0x60 + mt.toNat % 32 := by
  rw [mtregLowByte_eq_packMtregLo, toNat_packMtregLo, BitVec.extractLsb'_toNat, Nat.shiftRight_zero]

theorem setWidth_highBits (mt : Byte) : (mt.extractLsb' 5 3).setWidth 8 = mt >>> 5 := by
  apply BitVec.eq_of_toNat_eq
  rw [BitVec.toNat_setWidth, BitVec.extractLsb'_toNat, BitVec.toNat_ushiftRight, Nat.shiftRight_eq_div_pow]
  omega

theorem setWidth_lowBits (mt : Byte) : (mt.extractLsb' 0 5).setWidth 8 = mt &&& 0x1F := by
  apply BitVec.eq_of_toNat_eq
  rw [BitVec.toNat_setWidth, BitVec.extractLsb'_toNat, Nat.shiftRight_zero, BitVec.toNat_and]
  exact (Nat.mod_eq_of_lt (by omega)).trans (Nat.and_two_pow_sub_one_eq_mod mt.toNat 5).symm

/-- Settles O47: the high byte counts MTREG / 32 up from its tag, the low byte MTREG % 32. -/
theorem mtregHalvesCarryAllEightBits : Obligations.MtregHalvesCarryAllEightBits := by
  intro mt
  have high := toNat_mtregHighByte mt
  have low := toNat_mtregLowByte mt
  refine ⟨congrArg (0x40 ||| ·) (setWidth_highBits mt), congrArg (0x60 ||| ·) (setWidth_lowBits mt),
    by omega, by omega, by omega, by omega, by omega, decodeWire_packMtregHi _, decodeWire_packMtregLo _⟩

end Sys2Proof.Machine

/-!
PROOFS. The mode family of 41_mode.md: an index outside 1..6 (R125).
-/

namespace Sys2Proof.Machine

/-! ## Operations that only answer -/

@[simp] theorem gated_true (lines : List Line) : gated true lines = lines := rfl

/-- An operation whose one line is an answer without data changes SEQ and the response only. -/
theorem runOperation_respond_zero (i : Instr) (st : Status) (s : State) :
    runOperation i [.respond st .zero] s = { s with seq := .idle, rsp := some ⟨st, 0⟩ } := by
  rw [runOperation, runLines_respond]
  rfl

/-! ## SET_RES -/

/-- Outside 1..6 the answer is SET_RES's only line: the check comes before any write (41_mode.md R125). -/
theorem setResLines_of_outside {r : BitVec 16} (outside : r.toNat < 1 ∨ 6 < r.toNat) (cfg : Config) :
    setResLines cfg r = [.respond .errInvalidResolution .zero] := by
  have illegal : ¬ resLegal r = true := by
    rw [resLegal_iff]
    omega
  exact if_neg illegal

/-- Settles O40: on an initialised block SET_RES comes to its check of the index, and its one line is the answer. -/
theorem setResRejectsOtherIndices : Obligations.SetResRejectsOtherIndices := by
  intro s r inited outside
  have lines : program s.cfg s.inited (.setRes r) = [.respond .errInvalidResolution .zero] := by
    rw [program, inited, gated_true, setResLines_of_outside outside]
  rw [exec_request rfl, lines, runOperation_respond_zero]

end Sys2Proof.Machine

/-!
PROOFS. The calibration family of 42_calibration.md: the sensitivity clamp (R140), its rounding (R141) and the accuracy
clamp (R146).
-/

namespace Sys2Proof.Machine

/-! ## The rounding -/

section RoundTie

variable {p d : Nat}

theorem roundTie_of_above_half (tie : TieRule) (above : d < 2 * (p % d)) : roundTie tie p d = p / d + 1 :=
  if_pos above

theorem roundTie_of_below_half (tie : TieRule) (below : 2 * (p % d) < d) : roundTie tie p d = p / d :=
  (if_neg (by omega)).trans (if_pos below)

theorem roundTie_halfUp_of_half (half : 2 * (p % d) = d) : roundTie .halfUp p d = p / d + 1 :=
  (if_neg (by omega)).trans (if_neg (by omega))

theorem roundTie_halfEven_of_half (half : 2 * (p % d) = d) : roundTie .halfEven p d = p / d + p / d % 2 :=
  (if_neg (by omega)).trans (if_neg (by omega))

/-- The tie rule is consulted at an exact half only. -/
theorem roundTie_congr_of_not_half (tie tie' : TieRule) (notHalf : 2 * (p % d) ≠ d) :
    roundTie tie p d = roundTie tie' p d := by
  rcases Nat.lt_or_gt_of_ne notHalf with below | above
  · rw [roundTie_of_below_half tie below, roundTie_of_below_half tie' below]
  · rw [roundTie_of_above_half tie above, roundTie_of_above_half tie' above]

/-- Whatever the tie rule, the result is one of the two neighbours of p / d. -/
theorem roundTie_eq_div_or_succ (tie : TieRule) (p d : Nat) :
    roundTie tie p d = p / d ∨ roundTie tie p d = p / d + 1 := by
  rcases Nat.lt_trichotomy (2 * (p % d)) d with below | half | above
  · exact .inl (roundTie_of_below_half tie below)
  · cases tie with
    | halfUp => exact .inr (roundTie_halfUp_of_half half)
    | halfEven =>
      rw [roundTie_halfEven_of_half half]
      omega
  · exact .inr (roundTie_of_above_half tie above)

end RoundTie

/-- 69 * 29 is 1 modulo 1000, so a code ties exactly when it is 500 modulo 1000 (42_calibration.md R141). -/
theorem mul_69_mod_eq_500_iff (f : Nat) : f * 69 % 1000 = 500 ↔ f % 1000 = 500 := by omega

/-- Settles O45: one equation of RoundTie for each side of the half, and a code of the verbatim band ties exactly when
it is 500 modulo 1000. -/
theorem roundTieRoundsToNearest : Obligations.RoundTieRoundsToNearest := by
  refine ⟨fun tie p d _ => ⟨roundTie_of_above_half tie, roundTie_of_below_half tie⟩,
    fun p d _ half => ⟨roundTie_halfUp_of_half half, ?_, roundTie_eq_div_or_succ .halfEven p d⟩,
    fun f low high => ⟨?_, fun noTie => roundTie_congr_of_not_half _ _ (by omega)⟩, by decide, by decide⟩
  · rw [roundTie_halfEven_of_half half]
    omega
  · rw [mul_69_mod_eq_500_iff]
    omega

/-! ## The sensitivity clamp -/

section SensClamp

variable {f : Code}

theorem sensClamp_of_le_449 (tie : TieRule) (low : f.toNat ≤ 449) : sensClamp tie f = (450, 31) :=
  if_pos (show f.toNat * 69 < 1000 * 31 by omega)

theorem sensClamp_of_ge_3682 (tie : TieRule) (high : 3682 ≤ f.toNat) : sensClamp tie f = (3680, 254) :=
  (if_neg (show ¬ f.toNat * 69 < 1000 * 31 by omega)).trans (if_pos (show 1000 * 254 < f.toNat * 69 by omega))

/-- The verbatim band of 42_calibration.md R140. -/
theorem sensClamp_of_verbatim (tie : TieRule) (low : 450 ≤ f.toNat) (high : f.toNat ≤ 3681) :
    sensClamp tie f = (f, BitVec.ofNat 8 (roundTie tie (f.toNat * 69) 1000)) :=
  (if_neg (show ¬ f.toNat * 69 < 1000 * 31 by omega)).trans (if_neg (show ¬ 1000 * 254 < f.toNat * 69 by omega))

/-- The floor lies in [31, 253] over the verbatim band, so the rounded value stays in the MTreg range. -/
theorem roundTie_mem_of_verbatim (tie : TieRule) (low : 450 ≤ f.toNat) (high : f.toNat ≤ 3681) :
    31 ≤ roundTie tie (f.toNat * 69) 1000 ∧ roundTie tie (f.toNat * 69) 1000 ≤ 254 := by
  rcases roundTie_eq_div_or_succ tie (f.toNat * 69) 1000 with floor | succ <;> omega

/-- MTREG's eight bits hold the whole rounded value. -/
theorem toNat_sensClamp_mtreg_of_verbatim (tie : TieRule) (low : 450 ≤ f.toNat) (high : f.toNat ≤ 3681) :
    (sensClamp tie f).2.toNat = roundTie tie (f.toNat * 69) 1000 := by
  have range := roundTie_mem_of_verbatim tie low high
  rw [sensClamp_of_verbatim tie low high, BitVec.toNat_ofNat]
  exact Nat.mod_eq_of_lt (by omega)

/-- At 449 the low clamp gives what the rounding would have given: 30981 rounds up to 31. -/
theorem toNat_sensClamp_mtreg_449 (tie : TieRule) (edge : f.toNat = 449) :
    (sensClamp tie f).2.toNat = roundTie tie (f.toNat * 69) 1000 := by
  rw [sensClamp_of_le_449 tie edge.le, edge]
  exact (roundTie_of_above_half (p := 449 * 69) (d := 1000) tie (by decide)).symm

theorem sensClamp_range (tie : TieRule) (f : Code) :
    (450 ≤ (sensClamp tie f).1.toNat ∧ (sensClamp tie f).1.toNat ≤ 3681)
      ∧ (31 ≤ (sensClamp tie f).2.toNat ∧ (sensClamp tie f).2.toNat ≤ 254) := by
  rcases Nat.lt_or_ge f.toNat 450 with low | low
  · rw [sensClamp_of_le_449 tie (Nat.le_of_lt_succ low)]
    decide
  · rcases Nat.lt_or_ge 3681 f.toNat with high | high
    · rw [sensClamp_of_ge_3682 tie high]
      decide
    · rw [toNat_sensClamp_mtreg_of_verbatim tie low high, sensClamp_of_verbatim tie low high]
      exact ⟨⟨low, high⟩, roundTie_mem_of_verbatim tie low high⟩

end SensClamp

/-- Settles O44: the three bands, the agreement of clamp and rounding at 449, and the range over all three. -/
theorem sensClampHasThreeBands : Obligations.SensClampHasThreeBands := by
  intro tie f
  exact ⟨sensClamp_of_le_449 tie, sensClamp_of_ge_3682 tie,
    fun low high => ⟨congrArg Prod.fst (sensClamp_of_verbatim tie low high),
      toNat_sensClamp_mtreg_of_verbatim tie low high⟩,
    toNat_sensClamp_mtreg_449 tie, sensClamp_range tie f⟩

/-! ## The accuracy clamp -/

section AccClamp

variable {a : Code}

theorem accClamp_of_lt_960 (low : a.toNat < 960) : accClamp a = 960 :=
  if_pos (show a.toNat < 960 from low)

theorem accClamp_of_gt_1440 (high : 1440 < a.toNat) : accClamp a = 1440 :=
  (if_neg (show ¬ a.toNat < 960 by omega)).trans (if_pos (show 1440 < a.toNat from high))

theorem accClamp_of_mem (low : 960 ≤ a.toNat) (high : a.toNat ≤ 1440) : accClamp a = a :=
  (if_neg (show ¬ a.toNat < 960 by omega)).trans (if_neg (show ¬ 1440 < a.toNat by omega))

theorem accClamp_range (a : Code) : 960 ≤ (accClamp a).toNat ∧ (accClamp a).toNat ≤ 1440 := by
  rcases Nat.lt_or_ge a.toNat 960 with low | low
  · rw [accClamp_of_lt_960 low]
    decide
  · rcases Nat.lt_or_ge 1440 a.toNat with high | high
    · rw [accClamp_of_gt_1440 high]
      decide
    · rw [accClamp_of_mem low high]
      exact ⟨low, high⟩

end AccClamp

/-- Settles O46: one equation of the clamp on each side of [960, 1440] and one within it. -/
theorem accClampSnapsToTheBoundary : Obligations.AccClampSnapsToTheBoundary := by
  intro a
  exact ⟨accClamp_of_lt_960, accClamp_of_gt_1440, accClamp_of_mem, accClamp_range a⟩

end Sys2Proof.Machine

/-!
PROOFS. The measurement family of 43_measurement.md: the wait (R170, R171) and the lux conversion (R175 to R177).
-/

namespace Sys2Proof.Machine

/-! ## The wait -/

section Wait

variable {m : Byte}

/-- The mask of 43_measurement.md R170 selects the two bits that 30_encoding.md R79 compares. -/
theorem setWidth_lowTwoBits (m : Byte) : (m.extractLsb' 0 2).setWidth 8 = m &&& 0x03 := by
  ext i hi
  interval_cases i <;> simp

theorem isLowRes_iff : isLowRes m = true ↔ m &&& 0x03 = 0x03 := by
  rw [isLowRes, decide_eq_true_iff, ← setWidth_lowTwoBits]
  generalize m.extractLsb' 0 2 = bits
  revert bits
  decide

theorem baseTime_of_lowRes (low : m &&& 0x03 = 0x03) : baseTime m = 16 := if_pos (isLowRes_iff.mpr low)

theorem baseTime_of_highRes (high : m &&& 0x03 ≠ 0x03) : baseTime m = 120 := if_neg (high ∘ isLowRes_iff.mp)

theorem waitTime_of_lowRes (low : m &&& 0x03 = 0x03) (sens : Code) : waitTime m sens = 16 * sens.toNat / 1000 := by
  rw [waitTime, baseTime_of_lowRes low, scale]

theorem waitTime_of_highRes (high : m &&& 0x03 ≠ 0x03) (sens : Code) :
    waitTime m sens = 120 * sens.toNat / 1000 := by
  rw [waitTime, baseTime_of_highRes high, scale]

variable {sens : Code} (sensLow : 450 ≤ sens.toNat) (sensHigh : sens.toNat ≤ 3681)
include sensLow sensHigh

theorem waitTime_mem_of_lowRes (low : m &&& 0x03 = 0x03) : 7 ≤ waitTime m sens ∧ waitTime m sens ≤ 58 := by
  rw [waitTime_of_lowRes low]
  omega

theorem waitTime_mem_of_highRes (high : m &&& 0x03 ≠ 0x03) : 54 ≤ waitTime m sens ∧ waitTime m sens ≤ 441 := by
  rw [waitTime_of_highRes high]
  omega

/-- Whatever the class, the wait is between the shortest of the low one and the longest of the high one. -/
theorem waitTime_mem : 7 ≤ waitTime m sens ∧ waitTime m sens ≤ 441 := by
  by_cases low : m &&& 0x03 = 0x03
  · have range := waitTime_mem_of_lowRes sensLow sensHigh low
    omega
  · have range := waitTime_mem_of_highRes sensLow sensHigh low
    omega

end Wait

/-- Settles O51: the mask test is the test of the two low bits. -/
theorem baseTimeFollowsTheTwoBitTest : Obligations.BaseTimeFollowsTheTwoBitTest := by
  refine ⟨fun m => ?_, by decide, by decide⟩
  split
  case isTrue low => exact baseTime_of_lowRes low
  case isFalse high => exact baseTime_of_highRes high

/-- Settles O52: in each class the wait is a floor that grows with SENS, so its range over [450, 3681] is read off the
two ends. -/
theorem waitIsTheFloorAndInRange : Obligations.WaitIsTheFloorAndInRange := by
  intro m sens sensLow sensHigh
  obtain ⟨shortest, longest⟩ := waitTime_mem (m := m) sensLow sensHigh
  refine ⟨rfl, waitTime_mem_of_lowRes sensLow sensHigh, waitTime_mem_of_highRes sensLow sensHigh, by omega, by omega,
    fun at1025 high => ?_, fun at2050 high => ?_⟩
  · rw [waitTime_of_highRes high, at1025]
    rfl
  · rw [waitTime_of_highRes high, at2050]
    rfl

/-! ## The lux conversion -/

section Lux

variable {acc sens : Code} {res : BitVec 3}

theorem halfFactor_of_half (half : res = 2 ∨ res = 5) : halfFactor res = 2 := if_pos half

theorem halfFactor_mem (res : BitVec 3) : 1 ≤ halfFactor res ∧ halfFactor res ≤ 2 := by
  rw [halfFactor]
  split <;> decide

/-- Folding k into the divisor is dividing the floored result by k (43_measurement.md R176). -/
theorem luxQuotient_eq_div_halfFactor (raw : BitVec 16) (acc sens : Code) (res : BitVec 3) :
    luxQuotient raw acc sens res = luxQuotient raw acc sens 1 / halfFactor res := by
  have unhalved : luxDivisor acc sens 1 = acc.toNat * sens.toNat := Nat.mul_one _
  rw [luxQuotient, luxQuotient, unhalved, Nat.div_div_eq_div_mul, luxDivisor]

theorem luxDivisor_le (accHigh : acc.toNat ≤ 1440) (sensHigh : sens.toNat ≤ 3681) :
    luxDivisor acc sens res ≤ 1440 * 3681 * 2 :=
  Nat.mul_le_mul (Nat.mul_le_mul accHigh sensHigh) (halfFactor_mem res).2

section LowerClamps

variable (accLow : 960 ≤ acc.toNat) (sensLow : 450 ≤ sens.toNat)
include accLow sensLow

theorem le_luxDivisor : 960 * 450 * 1 ≤ luxDivisor acc sens res :=
  Nat.mul_le_mul (Nat.mul_le_mul accLow sensLow) (halfFactor_mem res).1

theorem luxDivisor_ne_zero : luxDivisor acc sens res ≠ 0 :=
  Nat.ne_of_gt (Nat.lt_of_lt_of_le (by decide) (le_luxDivisor accLow sensLow))

/-- The bound of 43_measurement.md R177, reached at full scale with both factors at their lower clamps. -/
theorem luxQuotient_le (raw : BitVec 16) : luxQuotient raw acc sens res ≤ 65535 * 1000000000 / (960 * 450 * 1) :=
  Nat.div_le_div (Nat.mul_le_mul_right _ (Nat.le_of_lt_succ raw.isLt)) (le_luxDivisor accLow sensLow) (by decide)

/-- The two lower clamps keep the quotient in the word, so the free value is never taken. -/
theorem toNat_convertLux (raw : BitVec 16) :
    (convertLux raw acc sens res).toNat = luxQuotient raw acc sens res := by
  have fits : luxQuotient raw acc sens res < 2 ^ 32 :=
    Nat.lt_of_le_of_lt (luxQuotient_le accLow sensLow raw) (by decide)
  rw [convertLux, if_pos ⟨luxDivisor_ne_zero accLow sensLow, fits⟩, BitVec.toNat_ofNat, Nat.mod_eq_of_lt fits]

theorem toNat_convertLux_of_half (raw : BitVec 16) (half : res = 2 ∨ res = 5) :
    (convertLux raw acc sens res).toNat = (convertLux raw acc sens 1).toNat / 2 := by
  rw [toNat_convertLux accLow sensLow, toNat_convertLux accLow sensLow, luxQuotient_eq_div_halfFactor,
    halfFactor_of_half half]

theorem convertLux_zero : convertLux 0 acc sens res = 0 := by
  apply BitVec.eq_of_toNat_eq
  rw [toNat_convertLux accLow sensLow, luxQuotient]
  simp

theorem toNat_convertLux_le (raw : BitVec 16) : (convertLux raw acc sens res).toNat ≤ 151701388 :=
  (toNat_convertLux accLow sensLow raw).trans_le (luxQuotient_le accLow sensLow raw)

/-- The smallest result that is not 0: one count with both factors at their upper clamps, halved. -/
theorem le_toNat_convertLux {raw : BitVec 16} (accHigh : acc.toNat ≤ 1440) (sensHigh : sens.toNat ≤ 3681)
    (light : raw ≠ 0) : 94 ≤ (convertLux raw acc sens res).toNat := by
  have count : 1 ≤ raw.toNat := Nat.pos_of_ne_zero fun dark => light (BitVec.eq_of_toNat_eq dark)
  rw [toNat_convertLux accLow sensLow]
  calc 94 = 1 * 1000000000 / (1440 * 3681 * 2) := by decide
    _ ≤ raw.toNat * 1000000000 / luxDivisor acc sens res :=
      Nat.div_le_div (Nat.mul_le_mul_right _ count) (luxDivisor_le accHigh sensHigh)
        (luxDivisor_ne_zero accLow sensLow)

end LowerClamps

end Lux

/-- Settles O54: the calibrated range keeps the divisor positive and the quotient in the word. -/
theorem luxIsTheFlooredQuotient : Obligations.LuxIsTheFlooredQuotient := by
  intro raw acc sens res accLow _ sensLow _
  refine ⟨luxDivisor_ne_zero accLow sensLow, toNat_convertLux accLow sensLow raw,
    toNat_convertLux_of_half accLow sensLow raw, fun dark => ?_⟩
  rw [dark, convertLux_zero accLow sensLow]

/-- Settles O55: the bound of a halved result is half the bound of the unhalved one. -/
theorem luxIsBoundedWithoutAClamp : Obligations.LuxIsBoundedWithoutAClamp := by
  refine ⟨fun raw acc sens res accLow accHigh sensLow sensHigh =>
    ⟨toNat_convertLux_le accLow sensLow raw, fun half => ?_,
      le_toNat_convertLux accLow sensLow accHigh sensHigh⟩, by decide, by decide, by decide⟩
  rw [toNat_convertLux_of_half accLow sensLow raw half]
  exact Nat.div_le_div_right (toNat_convertLux_le accLow sensLow raw)

end Sys2Proof.Machine

/-!
PROOFS. The reset family of 70_reset_and_hazards.md: the block after power-on reset (R230).
-/

namespace Sys2Proof.Machine

/-! ## The state after power-on reset -/

@[simp] theorem powerOnReset_inited (s : State) : (powerOnReset s).inited = false := rfl
@[simp] theorem powerOnReset_busStartFail (s : State) : (powerOnReset s).busStartFail = false := rfl
@[simp] theorem powerOnReset_seq (s : State) : (powerOnReset s).seq = .idle := rfl
@[simp] theorem powerOnReset_rsp (s : State) : (powerOnReset s).rsp = none := rfl
@[simp] theorem powerOnReset_wire (s : State) : (powerOnReset s).wire = none := rfl
@[simp] theorem powerOnReset_env (s : State) : (powerOnReset s).env = s.env := rfl
@[simp] theorem powerOnReset_trace (s : State) : (powerOnReset s).trace = s.trace := rfl

/-! ## Operations before INIT -/

/-- Check 2 of 60_exceptions.md R204 guards every step list but those of INIT and GET_STATUS. -/
theorem program_of_not_initialised {i : Instr} (request : i.isRequest = true) (notInit : ∀ a, i ≠ .init a)
    (notGetStatus : i ≠ .getStatus) (cfg : Config) :
    program cfg false i = [.respond .errNotInitialised .zero] := by
  cases i with
  | init addr => exact absurd rfl (notInit addr)
  | getStatus => exact absurd rfl notGetStatus
  | setMode | reset | setSens | getSens | setAcc | getAcc | setRes | getRes | getValue => rfl
  | powerDown | powerOn | resetDr | contHRes | contHRes2 | contLRes | oneHRes | oneHRes2 | oneLRes | mtregHi
  | mtregLo => cases request

/-- After power-on reset SEQ is idle already, so that answer leaves all but the response as it is. -/
theorem exec_powerOnReset_not_initialised {i : Instr} (request : i.isRequest = true) (notInit : ∀ a, i ≠ .init a)
    (notGetStatus : i ≠ .getStatus) (s : State) :
    exec i (powerOnReset s) = .next { powerOnReset s with rsp := some ⟨.errNotInitialised, 0⟩ } := by
  rw [exec_request request, powerOnReset_inited, program_of_not_initialised request notInit notGetStatus,
    runOperation_respond_zero]
  rfl

/-- Power-on reset leaves the ports and SEQ empty, so without a request the block waits (20_memory.md R64). -/
theorem step_powerOnReset_waits {s : State} (noRequest : s.env.requests = []) :
    step (powerOnReset s) = .next (powerOnReset s) :=
  step_waits (powerOnReset_wire s) (powerOnReset_seq s) (powerOnReset_rsp s)
    ((congrArg Env.requests (powerOnReset_env s)).trans noRequest)

/-- Settles O27: the four values stand in the definition; INITED = 0 closes check 2 of every operation it guards. -/
theorem powerOnResetLeavesABlockThatWaitsForInit : Obligations.PowerOnResetLeavesABlockThatWaitsForInit := by
  intro s
  exact ⟨powerOnReset_inited s, powerOnReset_busStartFail s, powerOnReset_seq s, powerOnReset_rsp s,
    powerOnReset_trace s,
    fun _ request notInit notGetStatus => exec_powerOnReset_not_initialised request notInit notGetStatus s,
    step_powerOnReset_waits, rfl, rfl, rfl, rfl, rfl⟩

end Sys2Proof.Machine

/-!
PROOFS. Encoding and decoding are inverse (30_encoding.md section 1 and 2), the illegal words (R74) and the assembler
(R82).
-/

namespace Sys2Proof

/-! ## Round trips -/

/-- Settles O1: a request word gives back its op and imm, so the decoder's branch of that op finds its operand; a
command byte is one of nine constants, or an MTreg tag over its bits. -/
theorem decodeOfEncodeIsTheInstruction : Obligations.DecodeOfEncodeIsTheInstruction := by
  intro i
  cases i with
  | init | setSens | setAcc | setRes => exact decodeRequest_packRequest _ _
  | setMode m => simp [encode, decode, decodeOp]
  | reset | getSens | getAcc | getRes | getValue | getStatus => exact decodeRequest_packRequest _ _
  | powerDown | powerOn | resetDr | contHRes | contHRes2 | contLRes | oneHRes | oneHRes2 | oneLRes => rfl
  | mtregHi h => exact decodeWire_packMtregHi h
  | mtregLo l => exact decodeWire_packMtregLo l

/-- The op of a word that decodes is one of the eleven (30_encoding.md R74). -/
theorem op_defined_of_decodeOp {op : BitVec 4} {imm : BitVec 16} {i : Instr} (h : decodeOp op imm = .ok i) :
    op.toNat ≤ 0xA := by
  by_contra reserved
  have late : ∀ op : BitVec 4, ¬ op.toNat ≤ 0xA → op ∈ [(0xB : BitVec 4), 0xC, 0xD, 0xE, 0xF] := by decide
  have mem := late op reserved
  fin_cases mem <;> cases h

/-- What an op and imm decode to packs them again. -/
theorem encode_of_decodeOp {op : BitVec 4} {imm : BitVec 16} {i : Instr} (h : decodeOp op imm = .ok i) :
    encode i = .req (packRequest op imm) := by
  rcases defined_cases op (op_defined_of_decodeOp h) with
    (rfl | rfl | rfl | rfl) | rfl | (rfl | rfl | rfl | rfl | rfl | rfl)
  iterate 4 cases h; rfl
  · obtain ⟨himm, hi⟩ := ite_eq_iff.mp h |>.resolve_right (by simp)
    cases hi
    exact congrArg (fun v => PortWord.req (packRequest 0x1 v)) (setWidth_lowByte himm)
  iterate 6
    obtain ⟨rfl, hi⟩ := ite_eq_iff.mp h |>.resolve_right (by simp)
    cases hi
    rfl

theorem encode_of_decodeRequest {w : Word} {i : Instr} (h : decodeRequest w = .ok i) : encode i = .req w := by
  obtain ⟨reserved, decoded⟩ := decodeRequest_ok h
  rw [encode_of_decodeOp decoded, packRequest_fields reserved]

theorem encode_of_decodeWire : ∀ {b : Byte} {i : Instr}, decodeWire b = .ok i → encode i = .wire b := by
  have bytes : ∀ b : Byte, (decodeWire b).toOption.all (fun i => encode i = .wire b) := by decide
  intro b i h
  simpa [h, Except.toOption] using bytes b

/-- Settles O2: a request word that decodes is its op and imm packed, and so is what it decodes to; the command bytes
are compared one by one. -/
theorem encodeOfDecodeIsTheWord : Obligations.EncodeOfDecodeIsTheWord := by
  intro p i h
  cases p with
  | req w => exact encode_of_decodeRequest h
  | wire b => exact encode_of_decodeWire h

/-- Settles O4: nine closed decodings. -/
theorem sampleWordsDecode : Obligations.SampleWordsDecode := by
  unfold Obligations.SampleWordsDecode
  decide

end Sys2Proof

namespace Sys2Proof

/-! ## Illegal words -/

/-- The operand bits that break the third check of 30_encoding.md R74, by what the op takes. -/
theorem operandBits_iff {op : BitVec 4} (defined : op.toNat ≤ 0xA) (imm : BitVec 16) :
    imm &&& immMustBeZero op ≠ 0 ↔ (op = 0x1 ∧ imm.extractLsb' 8 8 ≠ 0)
      ∨ (op ∈ [(0x2 : BitVec 4), 0x4, 0x6, 0x8, 0x9, 0xA] ∧ imm ≠ 0) := by
  rcases defined_cases op defined with whole | rfl | bare
  · have mask : imm &&& immMustBeZero op = 0 := by rcases whole with rfl | rfl | rfl | rfl <;> exact BitVec.and_zero
    have neither : op ≠ 0x1 ∧ op ∉ [(0x2 : BitVec 4), 0x4, 0x6, 0x8, 0x9, 0xA] := by
      rcases whole with rfl | rfl | rfl | rfl <;> decide
    tauto
  · have mask : imm &&& immMustBeZero 0x1 = 0 ↔ imm.extractLsb' 8 8 = 0 := and_highMask_eq_zero_iff
    have listed : (0x1 : BitVec 4) ∉ [(0x2 : BitVec 4), 0x4, 0x6, 0x8, 0x9, 0xA] := by decide
    tauto
  · have mask : imm &&& immMustBeZero op = 0 ↔ imm = 0 := by
      rcases bare with rfl | rfl | rfl | rfl | rfl | rfl <;> exact and_fullMask_eq_zero_iff
    have listed : op ≠ 0x1 ∧ op ∈ [(0x2 : BitVec 4), 0x4, 0x6, 0x8, 0x9, 0xA] := by
      rcases bare with rfl | rfl | rfl | rfl | rfl | rfl <;> decide
    tauto

theorem decodeRequest_error_iff {w : Word} : (∃ e, decodeRequest w = .error e) ↔ ¬ legalRequest w = true := by
  rw [legalRequest_iff_decodes]
  cases decodeRequest w <;> simp

theorem highByte_immField (w : Word) : (immField w).extractLsb' 8 8 = w.extractLsb' 8 8 := by
  ext i hi
  simp

theorem illegal_iff (w : Word) : (∃ e, decodeRequest w = .error e)
    ↔ 0xB ≤ (opField w).toNat ∨ rsvField w ≠ 0 ∨ (opField w = 0x1 ∧ w.extractLsb' 8 8 ≠ 0)
      ∨ (opField w ∈ [(0x2 : BitVec 4), 0x4, 0x6, 0x8, 0x9, 0xA] ∧ immField w ≠ 0) := by
  rw [decodeRequest_error_iff, legalRequest_iff, ← highByte_immField]
  by_cases defined : (opField w).toNat ≤ 0xA
  · have notReserved : ¬ 0xB ≤ (opField w).toNat := by omega
    rw [← operandBits_iff defined]
    tauto
  · have reservedOp : 0xB ≤ (opField w).toNat := by omega
    tauto

end Sys2Proof

namespace Sys2Proof.Machine

open Sys2Proof.Safety

/-- Settles O32: for an address that is neither of the two, the answer is INIT's only line. -/
theorem initRejectsOtherAddresses : Obligations.InitRejectsOtherAddresses := by
  intro s addr not23 not5C
  have illegal : ¬ addrLegal addr = true := mt (addrLegal_iff addr).mp (not_or.mpr ⟨not23, not5C⟩)
  have lines : program s.cfg s.inited (.init addr) = [.respond .errInvalidAddress .zero] := if_neg illegal
  rw [exec_request rfl, lines, runOperation_respond_zero]

/-- Settles O5: a word is illegal when one of the three checks of R74 fails, and is then only answered; the operand
checks of INIT and SET_RES come later, and answer codes of their own. -/
theorem illegalRequestsAreExactlyTheseAndChangeNothing :
    Obligations.IllegalRequestsAreExactlyTheseAndChangeNothing := by
  refine ⟨illegal_iff, fun s w rest e ready request illegal => ?_, fun imm => ⟨?_, ?_, ?_, ?_⟩,
    fun s imm not23 not5C => ⟨_, initRejectsOtherAddresses s imm not23 not5C, rfl⟩,
    fun s imm inited outside => ⟨_, setResRejectsOtherIndices s imm inited outside, rfl⟩⟩
  · obtain ⟨port, idle, free⟩ := ready
    rw [step_illegal port idle free request illegal]
    simp only [respond, ← idle]
  all_goals exact decodeRequest_packRequest _ imm

end Sys2Proof.Machine

namespace Sys2Proof

/-! ## The assembler -/

/-- Packing puts the op above the reserved field, so it counts 2^28 (30_encoding.md R71). -/
theorem packRequest_eq_ofNat (op : BitVec 4) {n : Nat} (fits : n < 65536) :
    packRequest op (BitVec.ofNat 16 n) = BitVec.ofNat 32 (op.toNat * 2 ^ 28 + n) := by
  have imm : n % 2 ^ 16 = n := Nat.mod_eq_of_lt fits
  have small : op.toNat < 16 := op.isLt
  have shifted : op.toNat <<< 28 ||| n = op.toNat * 2 ^ 28 + n := by
    rw [← Nat.shiftLeft_add_eq_or_of_lt (by omega), Nat.shiftLeft_eq]
  apply BitVec.eq_of_toNat_eq
  simp only [packRequest, BitVec.toNat_or, BitVec.toNat_shiftLeft, BitVec.toNat_setWidth, BitVec.toNat_ofNat, imm]
  rw [Nat.mod_eq_of_lt (a := op.toNat) (by omega), Nat.mod_eq_of_lt (a := n) (by omega),
    Nat.mod_eq_of_lt (a := op.toNat <<< 28) (by rw [Nat.shiftLeft_eq]; omega), shifted]
  omega

theorem setWidth_ofNat_of_lt {n : Nat} (fits : n < 256) : (BitVec.ofNat 8 n).setWidth 16 = BitVec.ofNat 16 n := by
  apply BitVec.eq_of_toNat_eq
  simp only [BitVec.toNat_setWidth, BitVec.toNat_ofNat]
  omega

/-- A number that fits its bits is the operand, and one that does not is rejected (30_encoding.md R82). -/
theorem value_num (bits n : Nat) : (AsmOperand.num n).value bits false = if n < 2 ^ bits then some n else none := by
  simp [AsmOperand.value]

theorem value_decimal (bits w : Nat) (digits : List (Fin 10)) :
    (AsmOperand.decimal w digits).value bits true
      = (milliCode w digits).bind fun n => (AsmOperand.num n).value bits false := by
  cases code : milliCode w digits <;> simp [AsmOperand.value, code]

/-- The four mnemonics that take a 16-bit number, with their ops. -/
def codeOps : List (AsmOp × BitVec 4) := [(.init, 0x0), (.setSens, 0x3), (.setAcc, 0x5), (.setRes, 0x7)]

theorem imm_code {op : AsmOp} {code : BitVec 4} (mem : (op, code) ∈ codeOps) (n : Nat) :
    AsmLine.imm ⟨op, .num n⟩ = if n < 65536 then some n else none := by
  have value := value_num 16 n
  fin_cases mem <;> exact value

theorem assemble_of_imm_none {l : AsmLine} (rejected : l.imm = none) : assemble l = none := by
  simp [assemble, AsmLine.toInstr, rejected]

theorem assemble_code {op : AsmOp} {code : BitVec 4} (mem : (op, code) ∈ codeOps) {o : AsmOperand} {n : Nat}
    (fits : n < 65536) (imm : AsmLine.imm ⟨op, o⟩ = some n) :
    assemble ⟨op, o⟩ = some (.req (BitVec.ofNat 32 (code.toNat * 2 ^ 28 + n))) := by
  rw [← packRequest_eq_ofNat code fits]
  fin_cases mem <;> simp [assemble, AsmLine.toInstr, imm, encode]

theorem assemble_code_num {op : AsmOp} {code : BitVec 4} (mem : (op, code) ∈ codeOps) {n : Nat} (fits : n < 65536) :
    assemble ⟨op, .num n⟩ = some (.req (BitVec.ofNat 32 (code.toNat * 2 ^ 28 + n))) :=
  assemble_code mem fits ((imm_code mem n).trans (if_pos fits))

theorem assemble_code_num_wide {op : AsmOp} {code : BitVec 4} (mem : (op, code) ∈ codeOps) {n : Nat}
    (wide : 65536 ≤ n) : assemble ⟨op, .num n⟩ = none :=
  assemble_of_imm_none ((imm_code mem n).trans (if_neg (by omega)))

theorem imm_setMode_num (n : Nat) : AsmLine.imm ⟨.setMode, .num n⟩ = if n < 256 then some n else none :=
  value_num 8 n

theorem assemble_setMode_num {n : Nat} (fits : n < 256) :
    assemble ⟨.setMode, .num n⟩ = some (.req (BitVec.ofNat 32 (0x10000000 + n))) := by
  have imm : AsmLine.imm ⟨.setMode, .num n⟩ = some n := (imm_setMode_num n).trans (if_pos fits)
  have word := packRequest_eq_ofNat 0x1 (show n < 65536 by omega)
  simpa [assemble, AsmLine.toInstr, imm, encode, setWidth_ofNat_of_lt fits] using word

/-- A decimal pseudo-instruction is its plain one at the milli-unit code, where there is one (30_encoding.md R82). -/
theorem assemble_decimal {op plain : AsmOp}
    (mem : (op, plain) ∈ [(AsmOp.setSensF, AsmOp.setSens), (.setAccF, .setAcc)]) (w : Nat) (digits : List (Fin 10)) :
    assemble ⟨op, .decimal w digits⟩ = (milliCode w digits).bind fun n => assemble ⟨plain, .num n⟩ := by
  have imm : AsmLine.imm ⟨op, .decimal w digits⟩
      = (milliCode w digits).bind fun n => AsmLine.imm ⟨plain, .num n⟩ := by
    have value := value_decimal 16 w digits
    fin_cases mem <;> exact value
  cases code : milliCode w digits with
  | none => exact assemble_of_imm_none (imm.trans (by rw [code]; rfl))
  | some n =>
    have plainly : AsmLine.imm ⟨op, .decimal w digits⟩ = AsmLine.imm ⟨plain, .num n⟩ :=
      imm.trans (by rw [code]; rfl)
    fin_cases mem <;> exact congrArg (Option.map encode) (by simp only [AsmLine.toInstr, plainly])

theorem wellFormed_iff (l : AsmLine) : l.wellFormed = true ↔ assemble l ≠ none := by
  simp only [AsmLine.wellFormed, assemble, AsmLine.toInstr]
  cases l.imm <;> simp

/-- The six mnemonics without an operand take none at all. -/
theorem assemble_bare {op : AsmOp} {w : Word}
    (mem : (op, w) ∈ ([(.reset, 0x20000000), (.getSens, 0x40000000), (.getAcc, 0x60000000), (.getRes, 0x80000000),
      (.getValue, 0x90000000), (.getStatus, 0xA0000000)] : List (AsmOp × Word))) :
    assemble ⟨op, .absent⟩ = some (.req w) ∧ (∀ o, o ≠ .absent → assemble ⟨op, o⟩ = none) := by
  constructor
  · fin_cases mem <;> decide
  · intro o given
    cases o with
    | absent => exact absurd rfl given
    | num n => fin_cases mem <;> rfl
    | decimal w digits => fin_cases mem <;> rfl

/-- Settles O6: the words of plain numbers are the packed op and number, and a decimal is its milli-unit code under the
plain mnemonic. -/
theorem assemblerGivesDecodableWords : Obligations.AssemblerGivesDecodableWords := by
  have init : (AsmOp.init, 0x0) ∈ codeOps := by decide
  have sens : (AsmOp.setSens, 0x3) ∈ codeOps := by decide
  have acc : (AsmOp.setAcc, 0x5) ∈ codeOps := by decide
  have res : (AsmOp.setRes, 0x7) ∈ codeOps := by decide
  refine ⟨fun l i expanded => ⟨encode i, ?_, decodeOfEncodeIsTheInstruction i⟩, wellFormed_iff, fun n fits => ?_,
    fun n => assemble_setMode_num, by decide, by decide, by decide, fun n wide => ?_, fun n wide => ?_,
    by decide, by decide, fun op w => assemble_bare, fun op plain mem => ⟨?_, fun w a b c d more => ?_⟩⟩
  · rw [assemble, expanded, Option.map_some]
  · have word := assemble_code_num init fits
    simp only [BitVec.ofNat_eq_ofNat, BitVec.toNat_ofNat, Nat.zero_mod, Nat.zero_mul, Nat.zero_add] at word
    exact ⟨word, assemble_code_num sens fits, assemble_code_num acc fits, assemble_code_num res fits⟩
  · exact ⟨assemble_code_num_wide init wide, assemble_code_num_wide sens wide, assemble_code_num_wide acc wide,
      assemble_code_num_wide res wide⟩
  · exact assemble_of_imm_none ((imm_setMode_num n).trans (if_neg (by omega)))
  · fin_cases mem <;> rfl
  · exact ⟨assemble_decimal mem w _, assemble_decimal mem w _, assemble_decimal mem w _, assemble_decimal mem w _,
      assemble_decimal mem w _⟩

end Sys2Proof

/-!
PROOFS. Rules over all instructions: what an operation can end in, said once (`Ends`), and what follows of registers,
ports, status codes and transactions (10_state.md section 1, 60_exceptions.md, 20_memory.md section 4).
-/

namespace Sys2Proof.Machine

open Sys2Proof.Safety

/-! ## The transactions of a line -/

theorem newTransactions_self (s : State) : newTransactions s s = [] := List.drop_length

theorem newTransactions_of_trace {s t : State} {xs : List Transaction} (h : t.trace = s.trace ++ xs) :
    newTransactions s t = xs := by
  rw [newTransactions, h, List.drop_left]

theorem newTransactions_append {s u t : State} {xs : List Transaction} (kept : s.trace <+: u.trace)
    (h : t.trace = u.trace ++ xs) : newTransactions s t = newTransactions s u ++ xs := by
  rw [newTransactions, h, List.drop_append_of_le_length kept.length_le, newTransactions]

/-- The transaction a line issues, with the answer it gets. -/
def lineTransactions (l : Line) (tmp : Transient) (s : State) : List Transaction :=
  match l with
  | .busStart => [.start s.addr s.cfg.busClkHz (nextStart s)]
  | .busWrite src => [.write s.addr (byteOf src tmp s) (nextWrite s)]
  | .sleep => [.sleep (waitTime tmp.m s.sens) (waitTime tmp.m s.sens + nextLateness s)]
  | .busRead => [.read s.addr (nextRead s)]
  | _ => []

theorem lineTransactions_length_le (l : Line) (tmp : Transient) (s : State) :
    (lineTransactions l tmp s).length ≤ 1 := by
  cases l <;> simp [lineTransactions]

theorem runLine_goesOn_trace {l : Line} {tmp tmp' : Transient} {s s' : State} (h : runLine l tmp s = .goesOn tmp' s') :
    s'.trace = s.trace ++ lineTransactions l tmp s := by
  cases l <;> simp only [runLine] at h
  case busWrite | busRead => split at h <;> cases h; rfl
  case respond => cases h
  all_goals cases h; simp [lineTransactions, assignWait]

/-- A line after which the operation goes on did not raise. -/
theorem runLine_goesOn_not_raised {l : Line} {tmp tmp' : Transient} {s s' : State}
    (h : runLine l tmp s = .goesOn tmp' s') : ∀ x ∈ lineTransactions l tmp s, raised x = false := by
  cases l <;> simp only [runLine] at h
  case busWrite | busRead => split at h <;> cases h; simp [lineTransactions, raised, *]
  all_goals simp [lineTransactions, raised]

/-- m is latched at acceptance and no line assigns it (43_measurement.md R178). -/
theorem runLine_goesOn_m {l : Line} {tmp tmp' : Transient} {s s' : State} (h : runLine l tmp s = .goesOn tmp' s') :
    tmp'.m = tmp.m := by
  cases l <;> simp only [runLine] at h
  case busWrite | busRead => split at h <;> cases h; rfl
  case respond => cases h
  all_goals cases h; rfl

/-! ## Registers and the lines that write them -/

/-- The registers an operation can write (10_state.md R21). -/
inductive Register where
  | inited | busStartFail | addr | sens | mtreg | acc | mode | res
  deriving DecidableEq

/-- The register holds in `t` what it holds in `s`. -/
def Register.Same (r : Register) (s t : State) : Prop :=
  match r with
  | .inited => t.inited = s.inited
  | .busStartFail => t.busStartFail = s.busStartFail
  | .addr => t.addr = s.addr
  | .sens => t.sens = s.sens
  | .mtreg => t.mtreg = s.mtreg
  | .acc => t.acc = s.acc
  | .mode => t.mode = s.mode
  | .res => t.res = s.res

theorem Register.Same.trans {r : Register} {s t u : State} (h : r.Same s t) (k : r.Same t u) : r.Same s u := by
  cases r <;> exact Eq.trans k h

/-- The register a line writes. -/
def target : Line → Option Register
  | .writeInited _ => some .inited
  | .writeAddr _ => some .addr
  | .recordStart => some .busStartFail
  | .writeMode _ => some .mode
  | .writeSens _ => some .sens
  | .writeMtreg _ => some .mtreg
  | .writeAcc _ => some .acc
  | .writeRes _ => some .res
  | .busStart => none
  | .busWrite _ => none
  | .sleep => none
  | .busRead => none
  | .respond _ _ => none

theorem runLine_goesOn_same {l : Line} {tmp tmp' : Transient} {s s' : State} (h : runLine l tmp s = .goesOn tmp' s')
    {r : Register} (other : target l ≠ some r) : r.Same s s' := by
  cases l <;> simp only [runLine] at h
  case busWrite | busRead => split at h <;> cases h; cases r <;> rfl
  case respond => cases h
  case busStart | sleep => cases h; cases r <;> rfl
  all_goals
    cases h
    cases r <;> first | rfl | exact absurd rfl other

theorem respond_same (r : Register) (st : Status) (d : Word) (s : State) : r.Same s (respond st d s) := by
  cases r <;> rfl

theorem busWrite_same (r : Register) (b : Byte) (s : State) : r.Same s (busWrite b s) := by
  cases r <;> rfl

theorem busRead_same (r : Register) (s : State) : r.Same s (busRead s) := by
  cases r <;> rfl

/-! ## The two shapes of a step list -/

/-- The checks of 60_exceptions.md R204 that a legal word can fail, all passed; a command byte is no operation. -/
def admits (inited : Bool) : Instr → Bool
  | .init addr => addrLegal addr
  | .setRes r => inited && resLegal r
  | .getStatus => true
  | .setMode _ => inited
  | .reset => inited
  | .setSens _ => inited
  | .getSens => inited
  | .setAcc _ => inited
  | .getAcc => inited
  | .getRes => inited
  | .getValue => inited
  | .powerDown => false
  | .powerOn => false
  | .resetDr => false
  | .contHRes => false
  | .contHRes2 => false
  | .contLRes => false
  | .oneHRes => false
  | .oneHRes2 => false
  | .oneLRes => false
  | .mtregHi _ => false
  | .mtregLo _ => false

/-- The lines of INIT at a legal address, without the closing `respond` (40_construction.md R100). -/
def initBody (cfg : Config) (addr : BitVec 16) : List Line :=
  [.writeInited false, .writeAddr (addr.extractLsb' 0 7)] ++ initProc cfg ++ [.writeInited true]

/-- The lines of an operation that passed its checks, without the closing `respond`. -/
def body (cfg : Config) : Instr → List Line
  | .init addr => initBody cfg addr
  | .setMode m => setModeProc (.const m)
  | .reset => resetProc cfg
  | .setSens f => setSensProc f
  | .setAcc a => setAccProc a
  | .setRes r => setResProc cfg r
  | .getValue => doMeasurement cfg
  | .getSens => []
  | .getAcc => []
  | .getRes => []
  | .getStatus => []
  | .powerDown => []
  | .powerOn => []
  | .resetDr => []
  | .contHRes => []
  | .contHRes2 => []
  | .contLRes => []
  | .oneHRes => []
  | .oneHRes2 => []
  | .oneLRes => []
  | .mtregHi _ => []
  | .mtregLo _ => []

/-- The status codes of checks 2 and 3 (60_exceptions.md R204). -/
def rejections : List Status := [.errNotInitialised, .errInvalidAddress, .errInvalidResolution]

theorem program_of_admitted {i : Instr} (request : i.isRequest = true) (cfg : Config) {inited : Bool}
    (admitted : admits inited i = true) : ∃ src, program cfg inited i = body cfg i ++ [.respond .ok src] := by
  cases i with
  | init addr =>
    have legal : addrLegal addr = true := admitted
    exact ⟨.zero, by
      simp only [program, initLines, if_pos legal, body, initBody, List.append_assoc, List.cons_append,
        List.nil_append]⟩
  | setRes r =>
    obtain ⟨rfl, legal⟩ := Bool.and_eq_true_iff.mp admitted
    exact ⟨.zero, if_pos legal⟩
  | getStatus => exact ⟨_, rfl⟩
  | setMode | reset | setSens | getSens | setAcc | getAcc | getRes | getValue =>
    obtain rfl : inited = true := admitted
    exact ⟨_, rfl⟩
  | powerDown | powerOn | resetDr | contHRes | contHRes2 | contLRes | oneHRes | oneHRes2 | oneLRes | mtregHi
  | mtregLo => cases request

theorem program_of_not_admitted {i : Instr} (request : i.isRequest = true) (cfg : Config) {inited : Bool}
    (refused : admits inited i = false) :
    ∃ st ∈ rejections, mayReport cfg i st = true ∧ program cfg inited i = [.respond st .zero] := by
  cases i with
  | init addr =>
    have illegal : addrLegal addr = false := refused
    exact ⟨.errInvalidAddress, by decide, rfl, by simp [program, initLines, illegal]⟩
  | setRes r =>
    cases inited with
    | false => exact ⟨.errNotInitialised, by decide, rfl, rfl⟩
    | true =>
      have illegal : resLegal r = false := refused
      exact ⟨.errInvalidResolution, by decide, rfl, by simp [program, setResLines, illegal]⟩
  | getStatus => cases refused
  | setMode | reset | setSens | getSens | setAcc | getAcc | getRes | getValue =>
    obtain rfl : inited = false := refused
    exact ⟨.errNotInitialised, by decide, rfl, rfl⟩
  | powerDown | powerOn | resetDr | contHRes | contHRes2 | contLRes | oneHRes | oneHRes2 | oneLRes | mtregHi
  | mtregLo => cases request

/-- The shapes of a step list: a body and OK, a rejection, or, for a command byte, nothing. -/
theorem program_cases (cfg : Config) (inited : Bool) (i : Instr) :
    (admits inited i = true ∧ ∃ src, program cfg inited i = body cfg i ++ [.respond .ok src])
      ∨ (∃ st ∈ rejections, program cfg inited i = [.respond st .zero]) ∨ program cfg inited i = [] := by
  by_cases request : i.isRequest = true
  · cases passed : admits inited i with
    | true => exact .inl ⟨rfl, program_of_admitted request cfg passed⟩
    | false =>
      obtain ⟨st, rejection, -, lines⟩ := program_of_not_admitted request cfg passed
      exact .inr (.inl ⟨st, rejection, lines⟩)
  · refine .inr (.inr ?_)
    cases i <;> first | exact absurd rfl request | rfl

/-- No body answers on its own. -/
theorem respond_not_mem_body (cfg : Config) (i : Instr) (st : Status) (src : DataSource) :
    .respond st src ∉ body cfg i := by
  have resProc : ∀ r, .respond st src ∉ setResProc cfg r := by
    intro r
    unfold setResProc
    split
    · split <;> simp [setModeProc]
    · simp
  have recordReset : ∀ b, .respond st src ∉ recordReset cfg b := by
    intro b
    unfold recordReset
    split <;> simp
  cases i with
  | init addr =>
    simp only [body, initBody, initProc, List.mem_append, resProc]
    simp [setModeProc, setSensProc, setAccProc]
  | setRes r => exact resProc r
  | setMode | setSens | setAcc => simp [body, setModeProc, setSensProc, setAccProc]
  | reset => simp [body, resetProc, recordReset]
  | getValue => simp [body, doMeasurement, resetProc, recordReset, setModeProc, waitForResult]
  | _ => simp [body]

end Sys2Proof.Machine

namespace Sys2Proof.Machine

open Sys2Proof.Safety

/-! ## How an operation ends -/

/-- How an operation `i` accepted in `s` ends in `t`: its checks fail and it only answers, or its lines run to the
end, or one of its writes or its read raises. `P` is what holds, with those lines still to run, where it ends. -/
inductive Ends (P : List Line → Transient → State → Prop) (i : Instr) (s t : State) : Prop where
  | rejected (st : Status) (refused : admits s.inited i = false) (rejection : st ∈ rejections)
      (may : mayReport s.cfg i st = true) (answered : t = { s with seq := .idle, rsp := some ⟨st, 0⟩ })
  | completed (src : DataSource) (tmp : Transient) (u : State) (admitted : admits s.inited i = true)
      (kept : Keeps s u) (holds : P [] tmp u) (answered : t = respond .ok (dataOf src tmp u) u)
  | writeRaised (src : ByteSource) (rest : List Line) (tmp : Transient) (u : State)
      (admitted : admits s.inited i = true) (line : .busWrite src ∈ body s.cfg i) (kept : Keeps s u)
      (holds : P (.busWrite src :: rest) tmp u) (raised : nextWrite u = .busError)
      (answered : t = respond .errBus 0 (busWrite (byteOf src tmp u) u))
  | readRaised (rest : List Line) (tmp : Transient) (u : State) (admitted : admits s.inited i = true)
      (line : .busRead ∈ body s.cfg i) (kept : Keeps s u) (holds : P (.busRead :: rest) tmp u)
      (raised : nextRead u = .busError) (answered : t = respond .errBus 0 (busRead u))

/-- `P` is handed on by every line of the operation after which it goes on. -/
def HandedOn (P : List Line → Transient → State → Prop) (i : Instr) (s : State) : Prop :=
  ∀ (l : Line) (rest : List Line) (tmp tmp' : Transient) (u u' : State), l ∈ body s.cfg i → Keeps s u →
    P (l :: rest) tmp u → runLine l tmp u = .goesOn tmp' u' → P rest tmp' u'

/-- The induction over the lines of a body, once. -/
theorem ends_of_runLines {P : List Line → Transient → State → Prop} {i : Instr} {s : State}
    (admitted : admits s.inited i = true) (handed : HandedOn P i s) (src : DataSource) :
    ∀ (ls : List Line) (tmp : Transient) (u : State), ls ⊆ body s.cfg i → Keeps s u → P ls tmp u →
      Ends P i s (runLines (ls ++ [.respond .ok src]) tmp u)
  | [], tmp, u, _, kept, holds => .completed src tmp u admitted kept holds rfl
  | l :: rest, tmp, u, sub, kept, holds => by
    have mem : l ∈ body s.cfg i := sub List.mem_cons_self
    rw [List.cons_append, runLines_cons]
    cases ran : runLine l tmp u with
    | goesOn tmp' u' =>
      exact ends_of_runLines admitted handed src rest tmp' u' (List.subset_of_cons_subset sub)
        (kept.trans (runLine_goesOn ran).1) (handed l rest tmp tmp' u u' mem kept holds ran)
    | ended u' =>
      rcases runLine_ended ran with ⟨st, src, rfl, -⟩ | ⟨src, rfl, raised, rfl⟩ | ⟨rfl, raised, rfl⟩
      · exact absurd mem (respond_not_mem_body _ _ _ _)
      · exact .writeRaised src rest tmp u admitted mem kept holds raised rfl
      · exact .readRaised rest tmp u admitted mem kept holds raised rfl

/-- The inversion of `exec` at an operation. -/
theorem ends_of_exec {P : List Line → Transient → State → Prop} {i : Instr} {s t : State}
    (request : i.isRequest = true) (h : exec i s = .next t)
    (start : admits s.inited i = true → P (body s.cfg i) (openingTransient i s) (accepted i s))
    (handed : HandedOn P i s) : Ends P i s t := by
  cases (exec_request request s).symm.trans h
  cases passed : admits s.inited i with
  | false =>
    obtain ⟨st, rejection, may, lines⟩ := program_of_not_admitted request s.cfg passed
    exact .rejected st passed rejection may (by rw [lines, runOperation_respond_zero])
  | true =>
    obtain ⟨src, lines⟩ := program_of_admitted request s.cfg passed
    rw [lines]
    exact ends_of_runLines passed handed src _ _ _ (List.Subset.refl _) (accepted_keeps i s) (start passed)

/-- Where nothing more is asked than how it ends. -/
theorem ends_of_exec_plain {i : Instr} {s t : State} (request : i.isRequest = true) (h : exec i s = .next t) :
    Ends (fun _ _ _ => True) i s t :=
  ends_of_exec request h (fun _ => trivial) fun _ _ _ _ _ _ _ _ _ _ => trivial

/-! ## Ports and history -/

/-- Settles O20: what `Keeps` says of every instruction. -/
theorem portsAreOutOfReachOfInstructions : Obligations.PortsAreOutOfReachOfInstructions := by
  intro i s t h
  have kept := exec_keeps h
  exact ⟨kept.wire, kept.requests, kept.responses⟩

theorem Keeps.history {s t : State} (h : Keeps s t) : s.trace <+: t.trace ∧ s.responses <+: t.responses :=
  ⟨h.trace, h.responses ▸ List.prefix_rfl⟩

theorem advance_keeps_history {op : Instr} {k : Nat} {tmp : Transient} {s t : State}
    (h : advance op k tmp s = .next t) :
    s.trace <+: t.trace ∧ t.responses = s.responses ∧ t.env.requests = s.env.requests := by
  rcases advance_cases h with ⟨src, -, rfl⟩ | ⟨l, tmp', s', -, -, ran, rfl⟩ | ⟨l, -, -, ended⟩
  · exact ⟨List.prefix_rfl, rfl, rfl⟩
  · have kept := (runLine_goesOn ran).1
    exact ⟨kept.trace, kept.responses, kept.requests⟩
  · have kept := (runLine_ended_responds ended).1
    exact ⟨kept.trace, kept.responses, kept.requests⟩

theorem holdOrTake_history (r : Response) (s : State) :
    (holdOrTake r s).trace = s.trace ∧ s.responses <+: (holdOrTake r s).responses
      ∧ (holdOrTake r s).env.requests = s.env.requests := by
  rcases holdOrTake_cases r s with ⟨-, h⟩ | ⟨n, -, h⟩ <;> rw [h]
  · exact ⟨rfl, List.prefix_append _ _, rfl⟩
  · exact ⟨rfl, List.prefix_rfl, rfl⟩

/-- Settles O18: an instruction and a line add to the trace, a response that is taken to the responses, and nothing
else touches either. -/
theorem historyOnlyGrows : Obligations.HistoryOnlyGrows := by
  intro s t h
  cases stepsTo_of_step h with
  | sendsKnown b i _ _ ran => exact (exec_keeps ran).history
  | sendsUnknown b e _ _ sent => exact sent ▸ (sendCommand_keeps b { s with wire := none }).history
  | advances op k tmp _ _ advanced =>
    obtain ⟨trace, responses, -⟩ := advance_keeps_history advanced
    exact ⟨trace, responses ▸ List.prefix_rfl⟩
  | holdsOrTakes r _ _ _ held =>
    obtain ⟨trace, responses, -⟩ := holdOrTake_history r s
    exact held ▸ ⟨trace ▸ List.prefix_rfl, responses⟩
  | waits _ _ same => exact same ▸ ⟨List.prefix_rfl, List.prefix_rfl⟩
  | answersIllegal _ _ _ _ _ _ answered => exact answered ▸ ⟨List.prefix_rfl, List.prefix_rfl⟩
  | accepts _ _ _ _ _ _ _ taken => exact taken ▸ ⟨List.prefix_rfl, List.prefix_rfl⟩
  | runsWhole _ _ _ _ _ _ _ ran => exact (exec_keeps ran).history

/-- Settles O11: only a ready block takes a word from the port. -/
theorem requestsAreHeldWhileBusyOrPending : Obligations.RequestsAreHeldWhileBusyOrPending := by
  intro s t notReady h
  have unready : ¬ Ready s := fun ⟨_, idle, free⟩ => notReady.elim (· idle) (· free)
  cases stepsTo_of_step h with
  | sendsKnown b i _ _ ran => exact (exec_keeps ran).requests
  | sendsUnknown b e _ _ sent => exact sent ▸ (sendCommand_keeps b _).requests
  | advances op k tmp _ _ advanced => exact (advance_keeps_history advanced).2.2
  | holdsOrTakes r _ _ _ held => exact held ▸ (holdOrTake_history r s).2.2
  | waits ready _ _ => exact absurd ready unready
  | answersIllegal _ _ _ ready _ _ _ => exact absurd ready unready
  | accepts _ _ _ ready _ _ _ _ => exact absurd ready unready
  | runsWhole _ _ _ ready _ _ _ _ => exact absurd ready unready

/-! ## Answers -/

/-- A write, or the read, stands only in a body whose operation may report ERR_BUS (60_exceptions.md R203). -/
theorem mayReport_errBus {cfg : Config} {i : Instr}
    (port : (∃ src, .busWrite src ∈ body cfg i) ∨ .busRead ∈ body cfg i) : mayReport cfg i .errBus = true := by
  cases i with
  | init | setMode | reset | setSens | getValue => rfl
  | setRes r =>
    cases bus : cfg.resWritesBus with
    | true => exact bus
    | false =>
      simp only [body, setResProc, bus] at port
      split at port <;> simp at port
  | setAcc a => simp [body, setAccProc] at port
  | getSens | getAcc | getRes | getStatus | powerDown | powerOn | resetDr | contHRes | contHRes2 | contLRes | oneHRes
  | oneHRes2 | oneLRes | mtregHi | mtregLo => simp [body] at port

/-- OK is reported by every operation. -/
theorem mayReport_ok (cfg : Config) (i : Instr) : mayReport cfg i .ok = true := by
  cases i <;> rfl

/-- Settles O21: each way an operation can end leaves one response, and only OK carries data. -/
theorem operationsReportOnlyTheirErrors : Obligations.OperationsReportOnlyTheirErrors := by
  intro i s t request h
  cases ends_of_exec_plain request h with
  | rejected st _ _ may answered => exact ⟨⟨st, 0⟩, by rw [answered], by rw [answered], may, fun _ => rfl⟩
  | completed src tmp u _ _ _ answered =>
    exact ⟨⟨.ok, _⟩, by rw [answered, respond_rsp], by rw [answered, respond_seq], mayReport_ok _ _,
      fun error => absurd rfl error⟩
  | writeRaised src _ tmp u _ line _ _ _ answered =>
    exact ⟨⟨.errBus, 0⟩, by rw [answered, respond_rsp], by rw [answered, respond_seq],
      mayReport_errBus (.inl ⟨src, line⟩), fun _ => rfl⟩
  | readRaised _ tmp u _ line _ _ _ answered =>
    exact ⟨⟨.errBus, 0⟩, by rw [answered, respond_rsp], by rw [answered, respond_seq],
      mayReport_errBus (.inr line), fun _ => rfl⟩

/-- Settles O22: an operation that passed its checks answers OK or ERR_BUS, so one that answers otherwise only
answered. -/
theorem rejectedOperationsChangeNothing : Obligations.RejectedOperationsChangeNothing := by
  intro i s t st d request h response rejection
  cases ends_of_exec_plain request h with
  | rejected st' _ _ _ answered =>
    subst answered
    cases response
    rfl
  | completed _ _ _ _ _ _ answered =>
    subst answered
    cases response
    simp at rejection
  | writeRaised _ _ _ _ _ _ _ _ _ answered | readRaised _ _ _ _ _ _ _ _ answered =>
    subst answered
    cases response
    simp at rejection

/-- Settles O28: check 2 is the whole step list of every operation it guards. -/
theorem notInitialisedComesBeforeTheOperandCheck : Obligations.NotInitialisedComesBeforeTheOperandCheck := by
  intro i s request notInit notGetStatus uninitialised
  have lines : program s.cfg s.inited i = [.respond .errNotInitialised .zero] := by
    rw [uninitialised, program_of_not_initialised request notInit notGetStatus]
  rw [exec_request request, lines, runOperation_respond_zero]

end Sys2Proof.Machine

/-!
PROOFS. Registers and their writers (10_state.md R21), and the transactions an operation issues (60_exceptions.md R205,
20_memory.md section 4, 30_encoding.md R81).
-/

namespace Sys2Proof.Machine

open Sys2Proof.Safety

/-! ## Writers -/

/-- The "written by" column of 10_state.md R21. -/
inductive IsWriter (cfg : Config) : Instr → Register → Prop where
  | init (addr : BitVec 16) (r : Register) : IsWriter cfg (.init addr) r
  | sens (f : Code) : IsWriter cfg (.setSens f) .sens
  | mtreg (f : Code) : IsWriter cfg (.setSens f) .mtreg
  | acc (a : Code) : IsWriter cfg (.setAcc a) .acc
  | res (r : BitVec 16) : IsWriter cfg (.setRes r) .res
  | modeOfSetMode (m : Byte) : IsWriter cfg (.setMode m) .mode
  | modeOfSetRes (r : BitVec 16) : IsWriter cfg (.setRes r) .mode
  | modeOfGetValue : IsWriter cfg .getValue .mode
  | modeOfReset (records : cfg.resetRecordsMode = true) : IsWriter cfg .reset .mode

/-- The registers some lines write, in order. -/
def targets (ls : List Line) : List Register := ls.filterMap target

@[simp] theorem targets_append (front back : List Line) : targets (front ++ back) = targets front ++ targets back :=
  List.filterMap_append

theorem targets_busWrite (src : ByteSource) (ls : List Line) : targets (.busWrite src :: ls) = targets ls := rfl

theorem targets_recordReset (cfg : Config) (b : Byte) :
    targets (recordReset cfg b) = if cfg.resetRecordsMode then [.mode] else [] := by
  rw [recordReset]
  split <;> rfl

theorem mem_targets_resetProc {cfg : Config} {r : Register} (h : r ∈ targets (resetProc cfg)) :
    r = .mode ∧ cfg.resetRecordsMode = true := by
  simpa [and_comm, resetProc, targets_recordReset, targets_busWrite] using h

theorem mem_targets_setResProc {cfg : Config} {n : BitVec 16} {r : Register} (h : r ∈ targets (setResProc cfg n)) :
    r = .mode ∨ r = .res := by
  unfold setResProc at h
  split at h
  · split at h <;> simpa [targets, target, setModeProc, eq_comm] using h
  · cases h

theorem isWriter_of_mem_targets {cfg : Config} {i : Instr} {r : Register} (h : r ∈ targets (body cfg i)) :
    IsWriter cfg i r := by
  cases i with
  | init addr => exact .init addr r
  | setMode m =>
    obtain rfl := List.mem_singleton.mp h
    exact .modeOfSetMode m
  | reset =>
    obtain ⟨rfl, records⟩ := mem_targets_resetProc h
    exact .modeOfReset records
  | setSens f =>
    have mem : r ∈ [Register.sens, .mtreg] := h
    rcases List.mem_pair.mp mem with rfl | rfl
    · exact .sens f
    · exact .mtreg f
  | setAcc a =>
    obtain rfl := List.mem_singleton.mp h
    exact .acc a
  | setRes n =>
    rcases mem_targets_setResProc h with rfl | rfl
    · exact .modeOfSetRes n
    · exact .res n
  | getValue =>
    have mode : r = .mode := by
      simp only [body, doMeasurement, targets_append, List.mem_append] at h
      rcases h with ((reset | trigger) | wait) | read
      · exact (mem_targets_resetProc reset).1
      · exact List.mem_singleton.mp trigger
      · cases wait
      · cases read
    exact mode ▸ .modeOfGetValue
  | getSens | getAcc | getRes | getStatus | powerDown | powerOn | resetDr | contHRes | contHRes2 | contLRes | oneHRes
  | oneHRes2 | oneLRes | mtregHi | mtregLo => cases h

/-- A register that is none of the operation's is as it was, however the operation ends. -/
theorem exec_same {i : Instr} {s t : State} (h : exec i s = .next t) {r : Register}
    (notWritten : ¬ IsWriter s.cfg i r) : r.Same s t := by
  rcases isRequest_or_command i with request | ⟨b, command⟩
  · have start : r.Same s (accepted i s) := by cases r <;> rfl
    have handed : HandedOn (fun _ _ u => r.Same s u) i s := by
      intro l rest tmp tmp' u u' mem _ same ran
      refine same.trans (runLine_goesOn_same ran fun writes => notWritten (isWriter_of_mem_targets ?_))
      exact List.mem_filterMap.mpr ⟨l, mem, writes⟩
    cases ends_of_exec request h (fun _ => start) handed with
    | rejected st _ _ _ answered => exact answered ▸ (by cases r <;> rfl)
    | completed src tmp u _ _ same answered => exact answered ▸ same.trans (respond_same r _ _ _)
    | writeRaised src _ tmp u _ _ _ same _ answered =>
      exact answered ▸ (same.trans (busWrite_same r _ _)).trans (respond_same r _ _ _)
    | readRaised _ tmp u _ _ _ same _ answered =>
      exact answered ▸ (same.trans (busRead_same r _)).trans (respond_same r _ _ _)
  · cases (exec_command command s).symm.trans h
    obtain ⟨inited, startFail, addr, sens, mtreg, acc, mode, res⟩ := sendCommand_registers b s
    cases r <;> assumption

/-- Settles O19: for each register, the instructions left are none of its writers. -/
theorem registersHaveOnlyTheirWriters : Obligations.RegistersHaveOnlyTheirWriters := by
  intro i s t h notInit
  refine ⟨exec_same h (r := .inited) fun w => ?_, exec_same h (r := .busStartFail) fun w => ?_,
    exec_same h (r := .addr) fun w => ?_,
    fun other => ⟨exec_same h (r := .sens) fun w => ?_, exec_same h (r := .mtreg) fun w => ?_⟩,
    fun other => exec_same h (r := .acc) fun w => ?_, fun other => exec_same h (r := .res) fun w => ?_,
    fun notSetMode notSetRes notGetValue notReset => exec_same h (r := .mode) fun w => ?_⟩
  case refine_8 =>
    cases w with
    | init addr => exact notInit addr rfl
    | modeOfSetMode m => exact notSetMode m rfl
    | modeOfSetRes r => exact notSetRes r rfl
    | modeOfGetValue => exact notGetValue rfl
    | modeOfReset records => exact Bool.false_ne_true ((notReset rfl).symm.trans records)
  iterate 3
    cases w
    exact notInit _ rfl
  iterate 4
    cases w
    · exact notInit _ rfl
    · exact other _ rfl

/-! ## Transactions -/

theorem newTransactions_goesOn {s u u' : State} {l : Line} {tmp tmp' : Transient} (kept : Keeps s u)
    (ran : runLine l tmp u = .goesOn tmp' u') :
    newTransactions s u' = newTransactions s u ++ lineTransactions l tmp u :=
  newTransactions_append kept.trace (runLine_goesOn_trace ran)

theorem newTransactions_respond (s u : State) (st : Status) (d : Word) :
    newTransactions s (respond st d u) = newTransactions s u := rfl

theorem newTransactions_busWrite {s u : State} (kept : Keeps s u) (b : Byte) :
    newTransactions s (busWrite b u) = newTransactions s u ++ [.write u.addr b (nextWrite u)] :=
  newTransactions_append kept.trace (busWrite_trace b u)

theorem newTransactions_busRead {s u : State} (kept : Keeps s u) :
    newTransactions s (busRead u) = newTransactions s u ++ [.read u.addr (nextRead u)] :=
  newTransactions_append kept.trace (busRead_trace u)

/-- A command byte is one transaction, however it goes. -/
theorem newTransactions_sendCommand (b : Byte) (s : State) :
    newTransactions s (sendCommand b s) = [.write s.addr b (nextWrite s)] := by
  rcases sendCommand_cases b s with ⟨-, h⟩ | ⟨op, k, t, -, -, h⟩ | ⟨op, k, t, -, -, h⟩ <;> rw [h] <;>
    exact newTransactions_of_trace rfl

/-- No transaction among those new in `u` raised. -/
def NoneRaised (s u : State) : Prop := ∀ x ∈ newTransactions s u, raised x = false

theorem noneRaised_handedOn (i : Instr) (s : State) : HandedOn (fun _ _ u => NoneRaised s u) i s := by
  intro l rest tmp tmp' u u' _ kept none ran x mem
  rw [newTransactions_goesOn kept ran] at mem
  exact (List.mem_append.mp mem).elim (none x) (runLine_goesOn_not_raised ran x)

/-- No new transaction but the last raised, and ERR_BUS is the status exactly if one did (60_exceptions.md R205). -/
def Precise (s t : State) (st : Status) : Prop :=
  (∀ x ∈ (newTransactions s t).dropLast, raised x = false)
    ∧ (st = .errBus ↔ ∃ x ∈ newTransactions s t, raised x = true)

theorem precise_of_noneRaised {s t : State} {st : Status} (none : NoneRaised s t) (noError : st ≠ .errBus) :
    Precise s t st := by
  refine ⟨fun x mem => none x (List.mem_of_mem_dropLast mem), fun error => absurd error noError, ?_⟩
  rintro ⟨x, mem, bad⟩
  exact absurd bad (by simp [none x mem])

theorem precise_of_lastRaised {s u t : State} {x : Transaction} (none : NoneRaised s u) (last : raised x = true)
    (traced : newTransactions s t = newTransactions s u ++ [x]) : Precise s t .errBus := by
  rw [Precise, traced, List.dropLast_concat]
  exact ⟨none, fun _ => ⟨x, by simp, last⟩, fun _ => rfl⟩

theorem noneRaised_of_sameTrace {s t : State} (same : t.trace = s.trace) : NoneRaised s t := by
  intro x mem
  simp [newTransactions, same] at mem

/-- Settles O23: an operation goes on only past transactions that did not raise, and ends at once after one that
did. -/
theorem nothingFollowsARaisedTransaction : Obligations.NothingFollowsARaisedTransaction := by
  intro i s t r request h response
  cases ends_of_exec request h (fun _ => noneRaised_of_sameTrace rfl) (noneRaised_handedOn i s) with
  | rejected st _ rejection _ answered =>
    subst answered
    cases response
    refine precise_of_noneRaised (noneRaised_of_sameTrace rfl) ?_
    rintro rfl
    simp [rejections] at rejection
  | completed src tmp u _ _ none answered =>
    subst answered
    cases response
    exact precise_of_noneRaised none nofun
  | writeRaised src _ tmp u _ _ kept none bad answered =>
    subst answered
    cases response
    exact precise_of_lastRaised none (by simp [raised, bad]) (newTransactions_busWrite kept _)
  | readRaised _ tmp u _ _ kept none bad answered =>
    subst answered
    cases response
    exact precise_of_lastRaised none (by simp [raised, bad]) (newTransactions_busRead kept)

/-- What holds of the transaction of each line, with m the byte latched at acceptance, holds of every transaction of
the operation. -/
theorem newTransactions_of_exec {p : Transaction → Prop} {i : Instr} {s t : State} (request : i.isRequest = true)
    (h : exec i s = .next t)
    (lines : ∀ l ∈ body s.cfg i, ∀ (tmp : Transient) (u : State), tmp.m = (openingTransient i s).m →
      ∀ x ∈ lineTransactions l tmp u, p x) :
    ∀ x ∈ newTransactions s t, p x := by
  have start : (openingTransient i s).m = (openingTransient i s).m ∧ ∀ x ∈ newTransactions s (accepted i s), p x :=
    ⟨rfl, fun x mem => by simp [newTransactions] at mem⟩
  have handed : HandedOn
      (fun _ tmp u => tmp.m = (openingTransient i s).m ∧ ∀ x ∈ newTransactions s u, p x) i s := by
    intro l rest tmp tmp' u u' line kept ⟨latched, before⟩ ran
    refine ⟨(runLine_goesOn_m ran).trans latched, fun x mem => ?_⟩
    rw [newTransactions_goesOn kept ran] at mem
    exact (List.mem_append.mp mem).elim (before x) (lines l line tmp u latched x)
  intro x mem
  cases ends_of_exec request h (fun _ => start) handed with
  | rejected st _ _ _ answered => simp [answered, newTransactions] at mem
  | completed src tmp u _ _ holds answered =>
    rw [answered, newTransactions_respond] at mem
    exact holds.2 x mem
  | writeRaised src _ tmp u _ line kept holds _ answered =>
    rw [answered, newTransactions_respond, newTransactions_busWrite kept] at mem
    exact (List.mem_append.mp mem).elim (holds.2 x) (lines _ line tmp u holds.1 x)
  | readRaised _ tmp u _ line kept holds _ answered =>
    rw [answered, newTransactions_respond, newTransactions_busRead kept] at mem
    exact (List.mem_append.mp mem).elim (holds.2 x) (lines _ line tmp u holds.1 x)

theorem le_of_sleep_mem {l : Line} {tmp : Transient} {s : State} {ms elapsed : Nat}
    (h : .sleep ms elapsed ∈ lineTransactions l tmp s) : ms ≤ elapsed := by
  cases l <;> simp [lineTransactions] at h
  omega

theorem source_of_write_mem {l : Line} {tmp : Transient} {s : State} {a : Addr} {b : Byte} {x : WriteAnswer}
    (h : .write a b x ∈ lineTransactions l tmp s) : ∃ src, l = .busWrite src ∧ b = byteOf src tmp s := by
  cases l <;> simp [lineTransactions] at h
  exact ⟨_, rfl, h.2.1⟩

/-- Settles O25: the one line that sleeps adds the lateness to what it asks for. -/
theorem sleepIsNeverShort : Obligations.SleepIsNeverShort := by
  intro i s t ms elapsed h mem
  rcases isRequest_or_command i with request | ⟨b, command⟩
  · exact newTransactions_of_exec (p := fun x => x = .sleep ms elapsed → ms ≤ elapsed) request h
      (fun _ _ _ _ _ _ issued same => le_of_sleep_mem (same ▸ issued)) _ mem rfl
  · cases (exec_command command s).symm.trans h
    simp [newTransactions_sendCommand] at mem

/-! ## Bytes on the bus -/

/-- The command table is what the decoder accepts (30_encoding.md R77). -/
theorem knownCommand_of_decodeWire {b : Byte} {i : Instr} (h : decodeWire b = .ok i) : knownCommand b = true := by
  have table : ∀ b : Byte, (decodeWire b).toOption.isSome = true → knownCommand b = true := by decide
  exact table b (by rw [h]; rfl)

theorem knownCommand_of_encode {b : Byte} {i : Instr} (h : encode i = .wire b) : knownCommand b = true := by
  have decoded := decodeOfEncodeIsTheInstruction i
  rw [h] at decoded
  exact knownCommand_of_decodeWire decoded

theorem knownCommand_of_modeList {r : Nat} {m : Byte} (h : modeList r = some m) : knownCommand m = true := by
  have rom : ∀ m ∈ modeRom, knownCommand m = true := by decide
  cases r with
  | zero => cases h
  | succ k => exact rom m (List.mem_of_getElem? h)

/-- The bytes an operation may send and record: those of the table, SET_MODE's operand and the latched m of GET_VALUE
(30_encoding.md R81). -/
def Sourced (i : Instr) (m b : Byte) : Prop := knownCommand b = true ∨ i = .setMode b ∨ (i = .getValue ∧ b = m)

/-- Whatever the state, the source gives such a byte. -/
def SourceOk (i : Instr) (src : ByteSource) : Prop :=
  ∀ (tmp : Transient) (u : State), Sourced i tmp.m (byteOf src tmp u)

theorem sourceOk_const {i : Instr} {b : Byte} (known : knownCommand b = true) : SourceOk i (.const b) :=
  fun _ _ => .inl known

theorem sourceOk_mtregHigh (i : Instr) : SourceOk i .mtregHigh :=
  fun _ _ => .inl (knownCommand_of_decodeWire (decodeWire_packMtregHi _))

theorem sourceOk_mtregLow (i : Instr) : SourceOk i .mtregLow :=
  fun _ _ => .inl (knownCommand_of_decodeWire (decodeWire_packMtregLo _))

/-- The source of the byte a line sends or records in MODE. -/
def sourceOf : Line → Option ByteSource
  | .busWrite src => some src
  | .writeMode src => some src
  | .writeInited _ => none
  | .writeAddr _ => none
  | .busStart => none
  | .recordStart => none
  | .writeSens _ => none
  | .writeMtreg _ => none
  | .writeAcc _ => none
  | .writeRes _ => none
  | .sleep => none
  | .busRead => none
  | .respond _ _ => none

/-- The sources of the bytes some lines send or record, in order. -/
def sources (ls : List Line) : List ByteSource := ls.filterMap sourceOf

@[simp] theorem sources_append (front back : List Line) : sources (front ++ back) = sources front ++ sources back :=
  List.filterMap_append

theorem sources_setModeProc (src : ByteSource) : sources (setModeProc src) = [src, src] := rfl

theorem sources_setSensProc (f : Code) : sources (setSensProc f) = [.mtregHigh, .mtregLow] := rfl

theorem sourceOk_setSensProc (i : Instr) {f : Code} : ∀ src ∈ sources (setSensProc f), SourceOk i src := by
  simp [sources_setSensProc, sourceOk_mtregHigh, sourceOk_mtregLow]

theorem sourceOk_resetProc (i : Instr) {cfg : Config} : ∀ src ∈ sources (resetProc cfg), SourceOk i src := by
  have on : SourceOk i (.const cmdPowerOn) := sourceOk_const (by decide)
  have reset : SourceOk i (.const cmdReset) := sourceOk_const (by decide)
  have lines : ∀ src ∈ sources (resetProc cfg), src = .const cmdPowerOn ∨ src = .const cmdReset := by
    unfold resetProc recordReset
    split <;> simp [sources, sourceOf]
  intro src mem
  rcases lines src mem with rfl | rfl
  · exact on
  · exact reset

theorem sourceOk_setResProc (i : Instr) {cfg : Config} {r : BitVec 16} :
    ∀ src ∈ sources (setResProc cfg r), SourceOk i src := by
  unfold setResProc
  split
  · next m row =>
    have known : SourceOk i (.const m) := sourceOk_const (knownCommand_of_modeList row)
    split <;> simp [sources, sourceOf, setModeProc, known]
  · simp [sources]

theorem sourceOk_body (cfg : Config) (i : Instr) : ∀ src ∈ sources (body cfg i), SourceOk i src := by
  cases i with
  | init addr =>
    have down : SourceOk (.init addr) (.const cmdPowerDown) := sourceOk_const (by decide)
    have rest : sources (body cfg (.init addr)) = sources (setModeProc (.const cmdPowerDown))
        ++ sources (setSensProc sensDefault) ++ sources (setResProc cfg resDefault) := by
      simp [body, initBody, initProc, sources, sourceOf, setAccProc, List.filterMap_cons]
    intro src mem
    rw [rest, List.mem_append, List.mem_append] at mem
    rcases mem with (mode | sens) | res
    · simp only [sources_setModeProc, List.mem_cons, List.not_mem_nil, or_false, or_self] at mode
      exact mode ▸ down
    · exact sourceOk_setSensProc _ src sens
    · exact sourceOk_setResProc _ src res
  | setMode m =>
    have operand : SourceOk (.setMode m) (.const m) := fun _ _ => .inr (.inl rfl)
    simp [body, sources_setModeProc, operand]
  | reset => exact sourceOk_resetProc _
  | setSens f => exact sourceOk_setSensProc _
  | setRes r => exact sourceOk_setResProc _
  | getValue =>
    have latched : SourceOk .getValue .latched := fun _ _ => .inr (.inr ⟨rfl, rfl⟩)
    intro src mem
    simp only [body, doMeasurement, sources_append, sources_setModeProc, List.mem_append] at mem
    rcases mem with ((reset | trigger) | wait) | read
    · exact sourceOk_resetProc _ src reset
    · simp only [List.mem_cons, List.not_mem_nil, or_false, or_self] at trigger
      exact trigger ▸ latched
    · cases wait
    · cases read
  | setAcc | getSens | getAcc | getRes | getStatus | powerDown | powerOn | resetDr | contHRes | contHRes2 | contLRes
  | oneHRes | oneHRes2 | oneLRes | mtregHi | mtregLo => exact fun _ mem => nomatch mem

theorem sourced_of_mem_body {cfg : Config} {i : Instr} {l : Line} {src : ByteSource} (line : l ∈ body cfg i)
    (source : sourceOf l = some src) (tmp : Transient) (u : State) : Sourced i tmp.m (byteOf src tmp u) :=
  sourceOk_body cfg i src (List.mem_filterMap.mpr ⟨l, line, source⟩) tmp u

theorem sourced_of_write {i : Instr} {s t : State} {a : Addr} {b : Byte} {x : WriteAnswer}
    (request : i.isRequest = true) (h : exec i s = .next t) (mem : .write a b x ∈ newTransactions s t) :
    Sourced i (openingTransient i s).m b := by
  refine newTransactions_of_exec (p := fun y => y = .write a b x → Sourced i (openingTransient i s).m b) request h
    ?_ _ mem rfl
  intro l line tmp u latched y issued same
  obtain ⟨src, rfl, rfl⟩ := source_of_write_mem (same ▸ issued)
  exact latched ▸ sourced_of_mem_body line rfl tmp u

/-- MODE is what it was, or such a byte. -/
theorem sourced_mode_handedOn (i : Instr) (s : State) :
    HandedOn (fun _ tmp u => tmp.m = (openingTransient i s).m
      ∧ (u.mode = s.mode ∨ Sourced i (openingTransient i s).m u.mode)) i s := by
  intro l rest tmp tmp' u u' line _ ⟨latched, before⟩ ran
  refine ⟨(runLine_goesOn_m ran).trans latched, ?_⟩
  by_cases other : target l = some .mode
  · cases l <;> simp only [target, Option.some.injEq, reduceCtorEq] at other
    case writeMode src =>
      cases ran
      exact .inr (latched ▸ sourced_of_mem_body line rfl tmp u)
  · have same : u'.mode = u.mode := runLine_goesOn_same (r := .mode) ran other
    rwa [same]

theorem sourced_mode {i : Instr} {s t : State} (request : i.isRequest = true) (h : exec i s = .next t) :
    t.mode = s.mode ∨ Sourced i (openingTransient i s).m t.mode := by
  cases ends_of_exec request h (fun _ => ⟨rfl, .inl rfl⟩) (sourced_mode_handedOn i s) with
  | rejected st _ _ _ answered => exact answered ▸ .inl rfl
  | completed src tmp u _ _ holds answered => exact answered ▸ holds.2
  | writeRaised src _ tmp u _ _ _ holds _ answered => exact answered ▸ holds.2
  | readRaised _ tmp u _ _ _ holds _ answered => exact answered ▸ holds.2

/-- Settles O26: the sources of every body are constants of the table, SET_MODE's operand and GET_VALUE's latched m,
which is the MODE it was accepted with. -/
theorem unknownBytesComeFromSetModeOrTheModeItLeft : Obligations.UnknownBytesComeFromSetModeOrTheModeItLeft := by
  constructor
  · intro i s t a b x h mem
    rcases isRequest_or_command i with request | ⟨c, command⟩
    · rcases sourced_of_write request h mem with known | operand | ⟨rfl, latched⟩
      · exact .inl known
      · exact .inr (.inl operand)
      · exact .inr (.inr ⟨rfl, latched⟩)
    · cases (exec_command command s).symm.trans h
      rw [newTransactions_sendCommand, List.mem_singleton] at mem
      cases mem
      exact .inl (knownCommand_of_encode command)
  · intro i s t h
    rcases isRequest_or_command i with request | ⟨c, command⟩
    · rcases sourced_mode request h with same | known | operand | ⟨rfl, latched⟩
      · exact .inl same
      · exact .inr (.inl known)
      · exact .inr (.inr operand)
      · exact .inl latched
    · cases (exec_command command s).symm.trans h
      obtain ⟨-, -, -, -, -, -, mode, -⟩ := sendCommand_registers c s
      exact .inl mode

end Sys2Proof.Machine

/-!
PROOFS. What an operation asks of the ports is a front part of its wire trace (40_construction.md R102,
43_measurement.md R179, 20_memory.md section 4).
-/

namespace Sys2Proof.Machine

open Sys2Proof.Safety

/-! ## What lines ask

The transactions of a list of lines, answers left out, depend on four registers and the latched m alone. -/

/-- What the bytes, the address and the wait of a line are read from. -/
structure View where
  cfg : Config
  addr : Addr
  sens : Code
  mtreg : Byte
  m : Byte

def viewOf (tmp : Transient) (s : State) : View := ⟨s.cfg, s.addr, s.sens, s.mtreg, tmp.m⟩

/-- The byte a line names (`byteOf`). -/
def View.byte (v : View) : ByteSource → Byte
  | .const b => b
  | .latched => v.m
  | .mtregHigh => mtregHighByte v.mtreg
  | .mtregLow => mtregLowByte v.mtreg

/-- What a line asks. -/
def View.asks (v : View) : Line → List Transaction
  | .busStart => [.start v.addr v.cfg.busClkHz .ok]
  | .busWrite src => [.write v.addr (v.byte src) .ok]
  | .sleep => [.sleep (waitTime v.m v.sens) (waitTime v.m v.sens)]
  | .busRead => [.read v.addr .busError]
  | _ => []

/-- The view after a line. -/
def View.after (v : View) : Line → View
  | .writeAddr a => { v with addr := a }
  | .writeSens f => { v with sens := (sensClamp v.cfg.mtregTie f).1 }
  | .writeMtreg f => { v with mtreg := (sensClamp v.cfg.mtregTie f).2 }
  | _ => v

/-- What a list of lines asks when each goes on. -/
def View.asksAll : View → List Line → List Transaction
  | _, [] => []
  | v, l :: rest => v.asks l ++ (v.after l).asksAll rest

theorem byteOf_eq_view (src : ByteSource) (tmp : Transient) (s : State) :
    byteOf src tmp s = (viewOf tmp s).byte src := by
  cases src <;> rfl

theorem map_asked_lineTransactions (l : Line) (tmp : Transient) (s : State) :
    (lineTransactions l tmp s).map asked = (viewOf tmp s).asks l := by
  cases l <;> simp [lineTransactions, asked, View.asks, byteOf_eq_view] <;> simp [viewOf]

theorem viewOf_goesOn {l : Line} {tmp tmp' : Transient} {s s' : State} (h : runLine l tmp s = .goesOn tmp' s') :
    viewOf tmp' s' = (viewOf tmp s).after l := by
  cases l <;> simp only [runLine] at h
  case busWrite | busRead => split at h <;> cases h; rfl
  case respond => cases h
  all_goals cases h; rfl

/-! ## The wire traces -/

theorem asksAll_recordReset (v : View) (cfg : Config) (b : Byte) (rest : List Line) :
    v.asksAll (recordReset cfg b ++ rest) = v.asksAll rest := by
  rw [recordReset]
  split <;> rfl

theorem asksAll_resetProc (v : View) (cfg : Config) (rest : List Line) :
    v.asksAll (resetProc cfg ++ rest) = [.write v.addr 0x01 .ok, .write v.addr 0x07 .ok] ++ v.asksAll rest := by
  simp [resetProc, View.asksAll, View.asks, View.after, View.byte, asksAll_recordReset, cmdPowerOn, cmdReset]

theorem asksAll_setResProc (v : View) (cfg : Config) (r : BitVec 16) (rest : List Line) :
    v.asksAll (setResProc cfg r ++ rest)
      = (if cfg.resWritesBus then (modeList r.toNat).toList.map (fun m => .write v.addr m .ok) else [])
        ++ v.asksAll rest := by
  unfold setResProc
  split
  · next m row => split <;> simp [row, setModeProc, View.asksAll, View.asks, View.after, View.byte]
  · next row => simp [row]

/-- The wire trace of 40_construction.md R102. -/
theorem asksAll_initBody (v : View) {addr : BitVec 16} (legal : addr = 0x23 ∨ addr = 0x5C) :
    v.asksAll (initBody v.cfg addr) = [.start (addr.setWidth 7) v.cfg.busClkHz .ok, .write (addr.setWidth 7) 0x00 .ok,
        .write (addr.setWidth 7) 0x42 .ok, .write (addr.setWidth 7) 0x65 .ok]
      ++ (if v.cfg.resWritesBus then [.write (addr.setWidth 7) 0x20 .ok] else []) := by
  have target : addr.extractLsb' 0 7 = addr.setWidth 7 := by rcases legal with rfl | rfl <;> rfl
  simpa [initBody, initProc, setModeProc, setSensProc, setAccProc, View.asksAll, View.asks, View.after, View.byte,
    asksAll_setResProc, modeList_default, sensClamp_default, cmdPowerDown, target]
    using And.intro mtregHighByte_default mtregLowByte_default

theorem asksAll_body {i : Instr} {s : State} (admitted : admits s.inited i = true) :
    (viewOf (openingTransient i s) s).asksAll (body s.cfg i) = fullTrace s i := by
  cases i with
  | init addr =>
    have legal := (addrLegal_iff addr).mp admitted
    rw [fullTrace, if_pos legal]
    exact asksAll_initBody _ legal
  | setMode m =>
    have inited : s.inited = true := admitted
    exact (if_pos inited).symm
  | reset =>
    have inited : s.inited = true := admitted
    have asks := asksAll_resetProc (viewOf (openingTransient .reset s) s) s.cfg []
    rw [List.append_nil] at asks
    exact asks.trans (if_pos inited).symm
  | setSens f =>
    have inited : s.inited = true := admitted
    exact (if_pos inited).symm
  | setRes r =>
    obtain ⟨inited, -⟩ := Bool.and_eq_true_iff.mp admitted
    have asks := asksAll_setResProc (viewOf (openingTransient (.setRes r) s) s) s.cfg r []
    rw [List.append_nil, View.asksAll, List.append_nil] at asks
    exact asks.trans (by simp [fullTrace, inited, viewOf])
  | getValue =>
    have inited : s.inited = true := admitted
    rw [fullTrace, if_pos inited, body, doMeasurement, List.append_assoc, List.append_assoc, asksAll_resetProc]
    rfl
  | setAcc | getSens | getAcc | getRes | getStatus => rfl
  | powerDown | powerOn | resetDr | contHRes | contHRes2 | contLRes | oneHRes | oneHRes2 | oneLRes | mtregHi
  | mtregLo => cases admitted

/-- What was asked so far and what the lines left would ask make up the wire trace. -/
def AskedSoFar (i : Instr) (s : State) (rest : List Line) (tmp : Transient) (u : State) : Prop :=
  (newTransactions s u).map asked ++ (viewOf tmp u).asksAll rest = fullTrace s i

theorem askedSoFar_handedOn (i : Instr) (s : State) : HandedOn (AskedSoFar i s) i s := by
  intro l rest tmp tmp' u u' _ kept sofar ran
  rw [AskedSoFar, newTransactions_goesOn kept ran, List.map_append, map_asked_lineTransactions, viewOf_goesOn ran,
    List.append_assoc]
  exact sofar

/-- A line that ended the operation asked the next part. -/
theorem asked_prefix_of_askedSoFar {i : Instr} {s u t : State} {l : Line} {rest : List Line} {tmp : Transient}
    (kept : Keeps s u) (sofar : AskedSoFar i s (l :: rest) tmp u)
    (traced : t.trace = u.trace ++ lineTransactions l tmp u) :
    (newTransactions s t).map asked <+: fullTrace s i := by
  rw [newTransactions_append kept.trace traced, List.map_append, map_asked_lineTransactions, ← sofar, View.asksAll,
    ← List.append_assoc]
  exact List.prefix_append _ _

/-- Settles O24: every line that is run asks the next part of the wire trace, a raised one too, and on OK none is
left. -/
theorem tracesAreFrontPartsOfTheStepList : Obligations.TracesAreFrontPartsOfTheStepList := by
  intro i s t request h
  have start : admits s.inited i = true → AskedSoFar i s (body s.cfg i) (openingTransient i s) (accepted i s) := by
    intro admitted
    have none : newTransactions s (accepted i s) = [] := newTransactions_self s
    rw [AskedSoFar, none]
    exact asksAll_body admitted
  cases ends_of_exec request h start (askedSoFar_handedOn i s) with
  | rejected st _ rejection _ answered =>
    subst answered
    refine ⟨0, by simp [newTransactions], fun d response => ?_⟩
    cases response
    simp [rejections] at rejection
  | completed src tmp u _ _ sofar answered =>
    have all : (newTransactions s t).map asked = fullTrace s i := by
      rw [answered, newTransactions_respond, ← sofar, View.asksAll, List.append_nil]
    exact ⟨_, all.trans List.take_length.symm, fun _ _ => all⟩
  | writeRaised src rest tmp u _ _ kept sofar _ answered =>
    subst answered
    exact ⟨_, List.prefix_iff_eq_take.mp (asked_prefix_of_askedSoFar kept sofar rfl),
      fun d response => nomatch response⟩
  | readRaised rest tmp u _ _ kept sofar _ answered =>
    subst answered
    exact ⟨_, List.prefix_iff_eq_take.mp (asked_prefix_of_askedSoFar kept sofar rfl),
      fun d response => nomatch response⟩

end Sys2Proof.Machine

/-!
PROOFS. Result statements: what an operation leaves when the bus's answers are scripted (41_mode.md, 42_calibration.md,
40_construction.md, 43_measurement.md). One rule a procedure, for each way its writes can go; the operations are
assembled from them.
-/

namespace Sys2Proof.Machine

open Sys2Proof.Safety

/-! ## Scripted writes -/

/-- The state after a BusWrite of `b` that the script answered `a`, with `writes` left of it. -/
def wrote (b : Byte) (a : WriteAnswer) (writes : List WriteAnswer) (s : State) : State :=
  { s with trace := s.trace ++ [.write s.addr b a], env := { s.env with writes := writes } }

theorem busWrite_of_script {s : State} {a : WriteAnswer} {writes : List WriteAnswer}
    (script : s.env.writes = a :: writes) (b : Byte) : busWrite b s = wrote b a writes s := by
  rw [busWrite, nextWrite_of_script script, script, wrote, List.tail_cons]

section Script

variable {s : State} {tmp : Transient} {writes : List WriteAnswer} {rest : List Line}

theorem runLines_busWrite_scriptOk (script : s.env.writes = .ok :: writes) (src : ByteSource) :
    runLines (.busWrite src :: rest) tmp s = runLines rest tmp (wrote (byteOf src tmp s) .ok writes s) := by
  rw [runLines_busWrite_ok (nextWrite_of_script script), busWrite_of_script script]

theorem runLines_busWrite_scriptError (script : s.env.writes = .busError :: writes) (src : ByteSource) :
    runLines (.busWrite src :: rest) tmp s = respond .errBus 0 (wrote (byteOf src tmp s) .busError writes s) := by
  rw [runLines_busWrite_error (nextWrite_of_script script), busWrite_of_script script]

/-! ## SetModeProc (41_mode.md R120) -/

theorem runLines_setModeProc_ok (script : s.env.writes = .ok :: writes) (src : ByteSource) :
    runLines (setModeProc src ++ rest) tmp s
      = runLines rest tmp { wrote (byteOf src tmp s) .ok writes s with mode := byteOf src tmp s } := by
  have sent := runLines_busWrite_scriptOk (tmp := tmp) (rest := .writeMode src :: rest) script src
  refine sent.trans ?_
  cases src <;> rfl

theorem runLines_setModeProc_error (script : s.env.writes = .busError :: writes) (src : ByteSource) :
    runLines (setModeProc src ++ rest) tmp s = respond .errBus 0 (wrote (byteOf src tmp s) .busError writes s) :=
  runLines_busWrite_scriptError script src

/-! ## ResetProc (41_mode.md R122) -/

theorem runLines_recordReset (cfg : Config) (b : Byte) :
    runLines (recordReset cfg b ++ rest) tmp s
      = runLines rest tmp { s with mode := if cfg.resetRecordsMode then b else s.mode } := by
  cases records : cfg.resetRecordsMode <;> simp [recordReset, records, runLines_cons, runLine, byteOf]

/-- The first write answered OK: MODE is recorded where the parameter asks for it, and Reset is next. -/
theorem runLines_resetProc_firstOk (cfg : Config) (script : s.env.writes = .ok :: writes) :
    runLines (resetProc cfg ++ rest) tmp s
      = runLines (.busWrite (.const cmdReset) :: (recordReset cfg cmdReset ++ rest)) tmp
        { wrote 0x01 .ok writes s with mode := if cfg.resetRecordsMode then 0x01 else s.mode } := by
  have lines : resetProc cfg ++ rest = .busWrite (.const cmdPowerOn) :: (recordReset cfg cmdPowerOn
      ++ .busWrite (.const cmdReset) :: (recordReset cfg cmdReset ++ rest)) := by
    simp [resetProc]
  rw [lines, runLines_busWrite_scriptOk script, runLines_recordReset]
  rfl

theorem runLines_resetProc_ok (cfg : Config) (script : s.env.writes = .ok :: .ok :: writes) :
    runLines (resetProc cfg ++ rest) tmp s = runLines rest tmp { s with
      mode := if cfg.resetRecordsMode then 0x07 else s.mode
      trace := s.trace ++ [.write s.addr 0x01 .ok, .write s.addr 0x07 .ok]
      env := { s.env with writes := writes } } := by
  rw [runLines_resetProc_firstOk cfg script, runLines_busWrite_scriptOk rfl, runLines_recordReset]
  cases records : cfg.resetRecordsMode <;> simp [wrote, byteOf, cmdReset]

theorem runLines_resetProc_firstError (cfg : Config) (script : s.env.writes = .busError :: writes) :
    runLines (resetProc cfg ++ rest) tmp s = respond .errBus 0 (wrote 0x01 .busError writes s) := by
  rw [resetProc, List.append_assoc, List.append_assoc, List.append_assoc]
  exact runLines_busWrite_scriptError script _

theorem runLines_resetProc_secondError (cfg : Config) (script : s.env.writes = .ok :: .busError :: writes) :
    runLines (resetProc cfg ++ rest) tmp s = respond .errBus 0 { s with
      mode := if cfg.resetRecordsMode then 0x01 else s.mode
      trace := s.trace ++ [.write s.addr 0x01 .ok, .write s.addr 0x07 .busError]
      env := { s.env with writes := writes } } := by
  rw [runLines_resetProc_firstOk cfg script, runLines_busWrite_scriptError rfl]
  simp [wrote, byteOf, cmdReset]

/-! ## SetSensProc (42_calibration.md R142, R143) -/

/-- SENS and MTREG of SensClamp(f). -/
def calibrated (f : Code) (s : State) : State :=
  { s with sens := (sensClamp s.cfg.mtregTie f).1, mtreg := (sensClamp s.cfg.mtregTie f).2 }

theorem runLines_setSensProc (f : Code) :
    runLines (setSensProc f ++ rest) tmp s
      = runLines (.busWrite .mtregHigh :: .busWrite .mtregLow :: rest) tmp (calibrated f s) := rfl

theorem runLines_setSensProc_ok (f : Code) (script : s.env.writes = .ok :: .ok :: writes) :
    runLines (setSensProc f ++ rest) tmp s = runLines rest tmp { calibrated f s with
      trace := s.trace ++ [.write s.addr (mtregHighByte (calibrated f s).mtreg) .ok,
        .write s.addr (mtregLowByte (calibrated f s).mtreg) .ok]
      env := { s.env with writes := writes } } := by
  rw [runLines_setSensProc, runLines_busWrite_scriptOk (s := calibrated f s) script, runLines_busWrite_scriptOk rfl]
  simp [wrote, byteOf, calibrated]

theorem runLines_setSensProc_firstError (f : Code) (script : s.env.writes = .busError :: writes) :
    runLines (setSensProc f ++ rest) tmp s
      = respond .errBus 0 (wrote (mtregHighByte (calibrated f s).mtreg) .busError writes (calibrated f s)) := by
  rw [runLines_setSensProc, runLines_busWrite_scriptError (s := calibrated f s) script]
  rfl

theorem runLines_setSensProc_secondError (f : Code) (script : s.env.writes = .ok :: .busError :: writes) :
    runLines (setSensProc f ++ rest) tmp s = respond .errBus 0 { calibrated f s with
      trace := s.trace ++ [.write s.addr (mtregHighByte (calibrated f s).mtreg) .ok,
        .write s.addr (mtregLowByte (calibrated f s).mtreg) .busError]
      env := { s.env with writes := writes } } := by
  rw [runLines_setSensProc, runLines_busWrite_scriptOk (s := calibrated f s) script, runLines_busWrite_scriptError rfl]
  simp [wrote, byteOf, calibrated]

/-! ## SetResProc (41_mode.md R126) -/

theorem runLines_setResProc_ok {cfg : Config} {r : BitVec 16} {m : Byte} (row : modeList r.toNat = some m)
    (script : s.env.writes = (if cfg.resWritesBus then [.ok] else []) ++ writes) :
    runLines (setResProc cfg r ++ rest) tmp s = runLines rest tmp { s with
      mode := m, res := r.setWidth 3
      trace := s.trace ++ (if cfg.resWritesBus then [.write s.addr m .ok] else [])
      env := { s.env with writes := writes } } := by
  simp only [setResProc, row]
  cases bus : cfg.resWritesBus with
  | false =>
    have untouched : s.env.writes = writes := by simpa [bus] using script
    simp [runLines_cons, runLine, byteOf, ← untouched]
  | true =>
    have first : s.env.writes = .ok :: writes := by simpa [bus] using script
    rw [if_pos rfl, List.append_assoc, runLines_setModeProc_ok first]
    rfl

theorem runLines_setResProc_error {cfg : Config} {r : BitVec 16} {m : Byte} (row : modeList r.toNat = some m)
    (bus : cfg.resWritesBus = true) (script : s.env.writes = .busError :: writes) :
    runLines (setResProc cfg r ++ rest) tmp s = respond .errBus 0 (wrote m .busError writes s) := by
  simp only [setResProc, row, if_pos bus, List.append_assoc]
  exact runLines_setModeProc_error script _

end Script

/-! ## Operations on an initialised block -/

/-- An operation runs the lines its step list names. -/
theorem exec_of_program {i : Instr} {s : State} {ls : List Line} (request : i.isRequest = true)
    (lines : program s.cfg s.inited i = ls) :
    exec i s = .next (runLines ls (openingTransient i s) (accepted i s)) := by
  rw [exec_request request, lines, runOperation]

section Initialised

variable {s : State} (inited : s.inited = true)
include inited

theorem exec_setMode_of_inited (m : Byte) : exec (.setMode m) s
    = .next (runLines (setModeProc (.const m) ++ [.respond .ok .zero]) blankTransient (accepted (.setMode m) s)) :=
  exec_of_program rfl (by rw [program, inited]; rfl)

theorem exec_reset_of_inited : exec .reset s
    = .next (runLines (resetProc s.cfg ++ [.respond .ok .zero]) blankTransient (accepted .reset s)) :=
  exec_of_program rfl (by rw [program, inited]; rfl)

theorem exec_setSens_of_inited (f : Code) : exec (.setSens f) s
    = .next (runLines (setSensProc f ++ [.respond .ok .zero]) blankTransient (accepted (.setSens f) s)) :=
  exec_of_program rfl (by rw [program, inited]; rfl)

theorem exec_setRes_of_inited {r : BitVec 16} (legal : resLegal r = true) : exec (.setRes r) s
    = .next (runLines (setResProc s.cfg r ++ [.respond .ok .zero]) blankTransient (accepted (.setRes r) s)) :=
  exec_of_program rfl (by rw [program, inited, gated_true, setResLines, if_pos legal])

theorem exec_getValue_of_inited : exec .getValue s
    = .next (runLines (resetProc s.cfg ++ (setModeProc .latched ++ [.sleep, .busRead, .respond .ok .lux]))
      { blankTransient with m := s.mode } (accepted .getValue s)) :=
  exec_of_program rfl (by
    rw [program, inited, gated_true, getValueLines, doMeasurement, List.append_assoc, List.append_assoc,
      List.append_assoc]
    rfl)

end Initialised

/-! ## Mode management -/

/-- Settles O34: one write of the operand, then its record. -/
theorem setModeCompletes : Obligations.SetModeCompletes := by
  intro s m writes inited script
  rw [exec_setMode_of_inited inited, runLines_setModeProc_ok (s := accepted _ s) script]
  rfl

/-- Settles O35: the record stands after the write, so a failed write ends the operation before it. -/
theorem setModeFailureKeepsMode : Obligations.SetModeFailureKeepsMode := by
  intro s m writes inited script
  rw [exec_setMode_of_inited inited, runLines_setModeProc_error (s := accepted _ s) script]
  rfl

/-- Settles O36: with the script empty the write is answered by the free value, and each of its two values is followed
as a scripted one is. -/
theorem unscriptedAnswersAreFree : Obligations.UnscriptedAnswersAreFree := by
  intro s m inited unscripted
  have free : nextWrite (accepted (.setMode m) s) = Config.freeWrite s.trace.length := by
    rw [nextWrite_accepted, nextWrite, unscripted]
    rfl
  have sent : busWrite m (accepted (.setMode m) s)
      = { accepted (.setMode m) s with trace := s.trace ++ [.write s.addr m (Config.freeWrite s.trace.length)] } := by
    rw [busWrite, free, accepted_env, unscripted, List.tail_nil, ← unscripted]
    rfl
  rw [exec_setMode_of_inited inited, setModeProc, List.cons_append]
  cases answer : Config.freeWrite s.trace.length with
  | ok =>
    rw [runLines_busWrite_ok (free.trans answer), show byteOf (.const m) blankTransient _ = m from rfl, sent, answer]
    rfl
  | busError =>
    rw [runLines_busWrite_error (free.trans answer), show byteOf (.const m) blankTransient _ = m from rfl, sent, answer]
    rfl

/-- Settles O37: ResetProc with both writes answered OK. -/
theorem resetCompletes : Obligations.ResetCompletes := by
  intro s writes inited script
  rw [exec_reset_of_inited inited, runLines_resetProc_ok (s := accepted _ s) _ script]
  rfl

/-- Settles O38: ResetProc with a write that raises, the first or the second. -/
theorem resetStopsAtAFailedWrite : Obligations.ResetStopsAtAFailedWrite := by
  intro s writes inited
  refine ⟨fun script => ?_, fun script => ?_⟩ <;> rw [exec_reset_of_inited inited]
  · rw [runLines_resetProc_firstError (s := accepted _ s) _ script]
    rfl
  · rw [runLines_resetProc_secondError (s := accepted _ s) _ script]
    rfl

/-- The mode list, row by row (30_encoding.md R78). -/
theorem modeList_row {r : BitVec 16} {m : Byte} {k : BitVec 3}
    (listed : (r, m, k) ∈ ([(1, 0x20, 1), (2, 0x21, 2), (3, 0x23, 3), (4, 0x10, 4), (5, 0x11, 5), (6, 0x13, 6)]
      : List (BitVec 16 × Byte × BitVec 3))) :
    resLegal r = true ∧ modeList r.toNat = some m ∧ r.setWidth 3 = k := by
  fin_cases listed <;> exact ⟨rfl, rfl, rfl⟩

/-- Settles O39: the six rows of the mode list, with the write of P_RES_WRITES_BUS or without. -/
theorem setResCompletes : Obligations.SetResCompletes := by
  intro s r m k writes inited listed script
  obtain ⟨legal, opcode, rfl⟩ := modeList_row listed
  rw [exec_setRes_of_inited inited legal, runLines_setResProc_ok (s := accepted _ s) opcode script]
  rfl

/-- Settles O41: under P_RES_WRITES_BUS the write comes before both records. -/
theorem setResFailureKeepsModeAndRes : Obligations.SetResFailureKeepsModeAndRes := by
  intro s r writes inited bus low high script
  obtain ⟨m, row⟩ := Option.isSome_iff_exists.mp ((modeList_isSome_iff r.toNat).mpr ⟨low, high⟩)
  refine ⟨m, row, ?_⟩
  rw [exec_setRes_of_inited inited ((resLegal_iff r).mpr ⟨low, high⟩),
    runLines_setResProc_error (s := accepted _ s) row bus script]
  rfl

/-! ## Reads -/

/-- An operation whose one line answers OK with data changes SEQ and the response only. -/
theorem exec_of_respondOk {i : Instr} {s : State} {src : DataSource} (request : i.isRequest = true)
    (lines : program s.cfg s.inited i = [.respond .ok src]) :
    exec i s = .next { s with seq := .idle, rsp := some ⟨.ok, dataOf src (openingTransient i s) s⟩ } := by
  rw [exec_of_program request lines, runLines_respond, dataOf_accepted]
  rfl

theorem exec_getRes_of_inited {s : State} (inited : s.inited = true) :
    exec .getRes s = .next { s with seq := .idle, rsp := some ⟨.ok, s.res.setWidth 32⟩ } :=
  exec_of_respondOk (src := .res) rfl (by rw [program, inited]; rfl)

/-- Settles O42: each read answers in one line, with a register that fits the data word. -/
theorem readsAnswerTheStoredRegister : Obligations.ReadsAnswerTheStoredRegister := by
  intro s inited
  exact ⟨s.sens.setWidth 32, s.acc.setWidth 32, s.res.setWidth 32,
    exec_of_respondOk (i := .getSens) (src := .sens) rfl (by rw [program, inited]; rfl),
    BitVec.toNat_setWidth_of_le (by decide),
    exec_of_respondOk (i := .getAcc) (src := .acc) rfl (by rw [program, inited]; rfl),
    BitVec.toNat_setWidth_of_le (by decide),
    exec_getRes_of_inited inited, BitVec.toNat_setWidth_of_le (by decide)⟩

theorem toNat_statusWord (s : State) : (statusWord s).toNat = s.inited.toNat + 2 * s.busStartFail.toNat := by
  rw [statusWord]
  generalize s.inited = inited
  generalize s.busStartFail = startFail
  revert inited startFail
  decide

/-- Settles O33: GET_STATUS has no check, and its word is the two bits. -/
theorem getStatusReadsTheStatusBits : Obligations.GetStatusReadsTheStatusBits :=
  fun s => ⟨statusWord s, exec_of_respondOk (src := .status) rfl rfl, toNat_statusWord s⟩

/-- An operation that answers OK passed its checks. -/
theorem admits_of_answersOk {i : Instr} {s t : State} {d : Word} (request : i.isRequest = true)
    (h : exec i s = .next t) (ok : t.rsp = some ⟨.ok, d⟩) : admits s.inited i = true := by
  cases ends_of_exec_plain request h with
  | rejected st _ rejection _ answered =>
    rw [answered] at ok
    cases ok
    simp [rejections] at rejection
  | completed _ _ _ admitted | writeRaised _ _ _ _ admitted | readRaised _ _ _ admitted => exact admitted

/-- A SET_RES that answers OK was admitted, and leaves RES its index (41_mode.md R126, R127). -/
theorem exec_setRes_answersOk {s t : State} {r : BitVec 16} {d : Word} (h : exec (.setRes r) s = .next t)
    (ok : t.rsp = some ⟨.ok, d⟩) :
    s.inited = true ∧ (1 ≤ r.toNat ∧ r.toNat ≤ 6) ∧ t.res = r.setWidth 3 := by
  obtain ⟨inited, legal⟩ := Bool.and_eq_true_iff.mp (admits_of_answersOk rfl h ok)
  have range := (resLegal_iff r).mp legal
  obtain ⟨m, row⟩ := Option.isSome_iff_exists.mp ((modeList_isSome_iff r.toNat).mpr range)
  cases (exec_setRes_of_inited inited legal).symm.trans h
  refine ⟨inited, range, ?_⟩
  simp only [setResProc, row] at ok ⊢
  cases bus : s.cfg.resWritesBus with
  | false => rfl
  | true =>
    rw [bus, if_pos rfl, List.append_assoc] at ok
    rw [if_pos rfl, List.append_assoc, runLines_setModeProc_of_answersOk ok]
    rfl

/-- Settles O43: SET_MODE is no writer of INITED or RES, so GET_RES reads the index SET_RES left. -/
theorem getResReturnsTheIndexSetDespiteSetMode : Obligations.GetResReturnsTheIndexSetDespiteSetMode := by
  intro s t u v r m d setRes ok setMode getRes
  obtain ⟨inited, ⟨low, high⟩, res⟩ := exec_setRes_answersOk setRes ok
  have initedT : t.inited = s.inited := exec_same setRes (r := .inited) nofun
  have initedU : u.inited = t.inited := exec_same setMode (r := .inited) nofun
  have resU : u.res = t.res := exec_same setMode (r := .res) nofun
  cases (exec_getRes_of_inited (initedU.trans (initedT.trans inited))).symm.trans getRes
  have width : (r.setWidth 3).setWidth 32 = r.setWidth 32 := by
    apply BitVec.eq_of_toNat_eq
    simp only [BitVec.toNat_setWidth]
    omega
  rw [resU, res, width]

/-! ## Calibration -/

/-- Settles O48: SetSensProc with both writes answered OK. -/
theorem setSensCompletes : Obligations.SetSensCompletes := by
  intro s f writes inited script
  simp only [← setWidth_highBits, ← setWidth_lowBits]
  rw [exec_setSens_of_inited inited, runLines_setSensProc_ok (s := accepted _ s) f script]
  rfl

/-- Settles O49: both registers are written before the first of the two bytes. -/
theorem setSensFailureKeepsTheNewPair : Obligations.SetSensFailureKeepsTheNewPair := by
  intro s f writes inited
  simp only [← setWidth_highBits, ← setWidth_lowBits]
  refine ⟨fun script => ?_, fun script => ?_⟩ <;> rw [exec_setSens_of_inited inited]
  · rw [runLines_setSensProc_firstError (s := accepted _ s) f script]
    rfl
  · rw [runLines_setSensProc_secondError (s := accepted _ s) f script]
    rfl

theorem toNat_accClamp (a : Code) : (accClamp a).toNat = max 960 (min a.toNat 1440) := by
  rcases Nat.lt_or_ge a.toNat 960 with low | low
  · rw [accClamp_of_lt_960 low]
    simp
    omega
  · rcases Nat.lt_or_ge 1440 a.toNat with high | high
    · rw [accClamp_of_gt_1440 high]
      simp
      omega
    · rw [accClamp_of_mem low high]
      omega

/-- Settles O50: SET_ACC is one register write and its answer. -/
theorem setAccCompletes : Obligations.SetAccCompletes := by
  intro s a inited
  refine ⟨accClamp a, ?_, toNat_accClamp a⟩
  rw [exec_of_program (ls := setAccLines a) rfl (by rw [program, inited]; rfl)]
  rfl

end Sys2Proof.Machine

/-!
PROOFS. Result statements of INIT (40_construction.md), GET_VALUE (43_measurement.md) and the command bytes
(20_memory.md section 2, 30_encoding.md section 2), from the rules of their procedures.
-/

namespace Sys2Proof.Machine

open Sys2Proof.Safety

/-! ## INIT -/

/-- ADDR takes the low seven bits of the operand. -/
theorem extractLsb'_addr (addr : BitVec 16) : addr.extractLsb' 0 7 = addr.setWidth 7 := by
  ext i hi
  simp

/-- An INIT of `addr` after its BusStart, answered `a`, and the transactions `new` since, with `starts` and `writes`
left of the scripts. -/
def initRunning (addr : BitVec 16) (a : StartAnswer) (starts : List StartAnswer) (writes : List WriteAnswer)
    (new : List Transaction) (s : State) : State :=
  { s with
    inited := false, busStartFail := decide (a = .peripheralError), addr := addr.setWidth 7
    seq := .busy (.init addr) 0 blankTransient
    trace := s.trace ++ .start (addr.setWidth 7) s.cfg.busClkHz a :: new
    env := { s.env with starts := starts, writes := writes } }

/-- Its transients: `st` alone is assigned (40_construction.md R101). -/
def initTransient (a : StartAnswer) : Transient :=
  { blankTransient with startFailed := decide (a = .peripheralError) }

theorem calibrated_default (s : State) : calibrated sensDefault s = { s with sens := 1000, mtreg := 69 } := by
  rw [calibrated, sensClamp_default]

section Init

variable {s : State} {addr : BitVec 16} {a : StartAnswer} {starts : List StartAnswer} {writes : List WriteAnswer}
  (legal : addr = 0x23 ∨ addr = 0x5C) (start : s.env.starts = a :: starts)
include legal start

/-- INITED, ADDR, BusStart and BUS_START_FAIL (40_construction.md R100, R101). -/
theorem exec_init_started (script : s.env.writes = writes) :
    exec (.init addr) s = .next (runLines (setModeProc (.const cmdPowerDown) ++ (setSensProc sensDefault
      ++ (.writeAcc accDefault :: (setResProc s.cfg resDefault ++ [.writeInited true, .respond .ok .zero]))))
      (initTransient a) (initRunning addr a starts writes [] s)) := by
  have first : nextStart (initEntered addr s) = a := nextStart_of_script start
  have state : { busStart (initEntered addr s) with busStartFail := decide (a = .peripheralError) }
      = initRunning addr a starts writes [] s := by
    rw [busStart, first]
    simp [initEntered, initRunning, accepted, start, ← script, extractLsb'_addr,
      openingTransient_other (show Instr.init addr ≠ .getValue from nofun)]
  rw [exec_request rfl, program, runOperation_init_legal ((addrLegal_iff addr).mpr legal), ← state]
  simp only [initProc, setAccProc, List.append_assoc, List.cons_append, List.nil_append, runLines_cons, runLine, first]
  rfl

/-- SetModeProc(0x00). -/
theorem exec_init_powered (script : s.env.writes = .ok :: writes) :
    exec (.init addr) s = .next (runLines (setSensProc sensDefault
      ++ (.writeAcc accDefault :: (setResProc s.cfg resDefault ++ [.writeInited true, .respond .ok .zero])))
      (initTransient a)
      { initRunning addr a starts writes [.write (addr.setWidth 7) 0x00 .ok] s with mode := 0x00 }) := by
  rw [exec_init_started legal start script, runLines_setModeProc_ok (writes := writes) rfl]
  simp [wrote, initRunning, byteOf, cmdPowerDown]

/-- SetSensProc(1000) and SetAccProc(1200). -/
theorem exec_init_calibrated (script : s.env.writes = .ok :: .ok :: .ok :: writes) :
    exec (.init addr) s = .next (runLines (setResProc s.cfg resDefault ++ [.writeInited true, .respond .ok .zero])
      (initTransient a)
      { initRunning addr a starts writes [.write (addr.setWidth 7) 0x00 .ok, .write (addr.setWidth 7) 0x42 .ok,
          .write (addr.setWidth 7) 0x65 .ok] s with
        mode := 0x00, sens := 1000, mtreg := 69, acc := 1200 }) := by
  rw [exec_init_powered legal start script, runLines_setSensProc_ok (writes := writes) _ rfl, calibrated_default,
    runLines_cons]
  simp only [runLine, accClamp_default, mtregHighByte_default, mtregLowByte_default]
  simp [initRunning]

end Init

/-- Settles O30: after the three procedures before it, SetResProc(1) and INITED <- 1. -/
theorem initCompletes : Obligations.InitCompletes := by
  intro s addr a starts writes legal start script
  rw [exec_init_calibrated legal start script, runLines_setResProc_ok (writes := writes) modeList_default rfl]
  simp [runLines_cons, runLine, respond, dataOf, initRunning, resDefault]

/-- Settles O31: the procedure that raises ends INIT with what the ones before it left. -/
theorem initStopsAtAFailedWrite : Obligations.InitStopsAtAFailedWrite := by
  intro s addr a starts writes legal start
  refine ⟨fun script => ?_, fun script => ?_, fun script => ?_, fun bus script => ?_⟩
  · rw [exec_init_started legal start script, runLines_setModeProc_error (writes := writes) rfl]
    simp [wrote, initRunning, respond, byteOf, cmdPowerDown]
  · rw [exec_init_powered legal start script, runLines_setSensProc_firstError (writes := writes) _ rfl,
      calibrated_default]
    simpa [wrote, initRunning, respond] using mtregHighByte_default
  · rw [exec_init_powered legal start script, runLines_setSensProc_secondError (writes := writes) _ rfl,
      calibrated_default]
    simpa [initRunning, respond] using And.intro mtregHighByte_default mtregLowByte_default
  · rw [exec_init_calibrated legal start script,
      runLines_setResProc_error (writes := writes) modeList_default bus rfl]
    simp [wrote, initRunning, respond]

/-! ## GET_VALUE -/

/-- The block before GET_VALUE's Sleep: MODE is what it was, whatever P_RESET_RECORDS_MODE did before the trigger. -/
def triggered (writes : List WriteAnswer) (s : State) : State :=
  { accepted .getValue s with
    trace := s.trace ++ [.write s.addr 0x01 .ok, .write s.addr 0x07 .ok, .write s.addr s.mode .ok]
    env := { s.env with writes := writes } }

theorem exec_getValue_triggered {s : State} {writes : List WriteAnswer} (inited : s.inited = true)
    (script : s.env.writes = .ok :: .ok :: .ok :: writes) :
    exec .getValue s = .next (runLines [.sleep, .busRead, .respond .ok .lux] { blankTransient with m := s.mode }
      (triggered writes s)) := by
  rw [exec_getValue_of_inited inited, runLines_resetProc_ok (s := accepted .getValue s) _ script,
    runLines_setModeProc_ok (writes := writes) rfl]
  simp [wrote, triggered, byteOf]

/-- The block before GET_VALUE's BusRead. -/
def slept (writes : List WriteAnswer) (s : State) : State := sleep (waitTime s.mode s.sens) (triggered writes s)

theorem nextRead_slept (writes : List WriteAnswer) {s : State} {x : ReadAnswer} {reads : List ReadAnswer}
    (script : s.env.reads = x :: reads) : nextRead (slept writes s) = x :=
  nextRead_of_script (rest := reads) (by rw [slept, sleep_env]; exact script)

/-- The transients of GET_VALUE when it reads. -/
def waited (s : State) : Transient := { blankTransient with m := s.mode, waitMs := waitTime s.mode s.sens }

theorem exec_getValue_slept {s : State} {writes : List WriteAnswer} (inited : s.inited = true)
    (script : s.env.writes = .ok :: .ok :: .ok :: writes) :
    exec .getValue s = .next (runLines [.busRead, .respond .ok .lux] (waited s) (slept writes s)) :=
  exec_getValue_triggered inited script

/-- Three writes and the read answered OK, whatever the Sleep does: the response is the conversion of the count read. -/
theorem exec_getValue_ok {s : State} {writes : List WriteAnswer} {b0 b1 : Byte} {reads : List ReadAnswer}
    (inited : s.inited = true) (script : s.env.writes = .ok :: .ok :: .ok :: writes)
    (readScript : s.env.reads = .bytes b0 b1 :: reads) :
    exec .getValue s = .next (respond .ok (convertLux (rawCount s.cfg.rawByteOrder b0 b1) s.acc s.sens s.res)
      (busRead (slept writes s))) := by
  rw [exec_getValue_slept inited script, runLines_busRead_ok (nextRead_slept writes readScript), runLines_respond]
  rfl

/-- The Sleep and the read of GET_VALUE as scripted. -/
theorem busRead_slept {s : State} {writes : List WriteAnswer} {x : ReadAnswer} {reads : List ReadAnswer} {late : Nat}
    {lateness : List Nat} (readScript : s.env.reads = x :: reads) (sleepScript : s.env.lateness = late :: lateness) :
    busRead (slept writes s) = { triggered writes s with
      trace := s.trace ++ [.write s.addr 0x01 .ok, .write s.addr 0x07 .ok, .write s.addr s.mode .ok,
        .sleep (waitTime s.mode s.sens) (waitTime s.mode s.sens + late), .read s.addr x]
      env := { s.env with writes := writes, reads := reads, lateness := lateness } } := by
  have overrun : nextLateness (triggered writes s) = late := nextLateness_of_script sleepScript
  rw [busRead, nextRead_slept writes readScript, slept, sleep, overrun]
  simp [triggered, readScript, sleepScript]

/-- Settles O56: the calibrated ranges make the conversion the floored quotient. -/
theorem getValueCompletes : Obligations.GetValueCompletes := by
  intro s writes b0 b1 reads late lateness inited calibrated script readScript sleepScript
  obtain ⟨⟨-, ⟨sensLow, -⟩, ⟨accLow, -⟩, -⟩, -⟩ := calibrated
  refine ⟨convertLux (rawCount s.cfg.rawByteOrder b0 b1) s.acc s.sens s.res, ?_,
    toNat_convertLux accLow sensLow _⟩
  rw [exec_getValue_ok inited script readScript, busRead_slept readScript sleepScript]
  rfl

/-- Settles O57: ResetProc's two writes, the trigger and the read, each raising in its turn. -/
theorem getValueStopsAtAFailedTransaction : Obligations.GetValueStopsAtAFailedTransaction := by
  intro s writes reads late lateness inited
  refine ⟨fun script => ?_, fun script => ?_, fun script => ?_, fun script readScript sleepScript => ?_⟩
  · rw [exec_getValue_of_inited inited, runLines_resetProc_firstError (s := accepted .getValue s) _ script]
    rfl
  · rw [exec_getValue_of_inited inited, runLines_resetProc_secondError (s := accepted .getValue s) _ script]
    rfl
  · rw [exec_getValue_of_inited inited, runLines_resetProc_ok (s := accepted .getValue s) _ script,
      runLines_setModeProc_error (writes := writes) rfl]
    simp [wrote, respond, byteOf]
  · rw [exec_getValue_slept inited script, runLines_busRead_error (nextRead_slept writes readScript),
      busRead_slept readScript sleepScript]
    rfl

/-- Settles O58: the conversion reads the count and three registers, and MODE is none of them. -/
theorem luxDoesNotDependOnMode : Obligations.LuxDoesNotDependOnMode := by
  intro s t u m writes b0 b1 reads script readScript first second
  cases inited : s.inited with
  | true =>
    cases (exec_getValue_ok inited script readScript).symm.trans first
    cases (exec_getValue_ok (s := { s with mode := m }) inited script readScript).symm.trans second
    rfl
  | false =>
    have rejected := fun s => notInitialisedComesBeforeTheOperandCheck .getValue s rfl nofun nofun
    cases (rejected s inited).symm.trans first
    cases (rejected { s with mode := m } inited).symm.trans second
    rfl

/-! ## Command bytes -/

/-- Settles O59: with SEQ idle the transmission is a BusWrite and nothing else. -/
theorem commandByteIsOneBusWrite : Obligations.CommandByteIsOneBusWrite := by
  intro s i b a writes command idle script
  rw [exec_command command, sendCommand_idle idle, busWrite_of_script script]
  rfl

/-- Settles O60: the two answers to the transmission of an operation in progress. -/
theorem commandByteAdvancesOrEndsTheOperation : Obligations.CommandByteAdvancesOrEndsTheOperation := by
  intro s i op k t b writes command busy
  refine ⟨fun script => ?_, fun script => ?_⟩ <;> rw [exec_command command]
  · rw [sendCommand_busy_ok busy (nextWrite_of_script script), busWrite_of_script script]
    rfl
  · rw [sendCommand_busy_error busy (nextWrite_of_script script), busWrite_of_script script]
    rfl

/-- Settles O8: a byte of the table is run as its command. -/
theorem stepRunsTheCommandOnTheBusPort : Obligations.StepRunsTheCommandOnTheBusPort :=
  fun _ _ _ port known => step_wire_known port known

/-- Whether its byte names a command or not, the bus port's step transmits it. -/
theorem step_wire {s : State} {b : Byte} (port : s.wire = some b) :
    step s = .next (sendCommand b { s with wire := none }) := by
  cases decoded : decodeWire b with
  | ok i => rw [step_wire_known port decoded, exec_command (encode_of_decodeWire decoded)]
  | error e => exact step_wire_unknown port decoded

/-- Settles O9: with SEQ idle that transmission is one BusWrite. -/
theorem anyByteOnTheBusPortIsSent : Obligations.AnyByteOnTheBusPortIsSent := by
  intro s b a rest port idle script
  rw [step_wire port, sendCommand_idle (s := { s with wire := none }) idle,
    busWrite_of_script (s := { s with wire := none }) script]
  rfl

end Sys2Proof.Machine

/-!
PROOFS. Steps (20_memory.md section 5, 10_state.md section 4): where the machine stops, how a line-by-line run reaches
what the whole operation gives, and the handshake with the host.
-/

namespace Sys2Proof.Machine

open Sys2Proof.Safety

/-! ## Where the machine stops -/

theorem exec_next (i : Instr) (s : State) : ∃ t, exec i s = .next t := by
  rcases isRequest_or_command i with request | ⟨b, command⟩
  · exact ⟨_, exec_request request s⟩
  · exact ⟨_, exec_command command s⟩

section Advance

variable {op : Instr} {k : Nat} {tmp : Transient} {s : State}

theorem advance_pastEnd (past : (program s.cfg s.inited op).length ≤ k) :
    advance op k tmp s = .fault .sequencerPastEnd := by
  rw [advance, List.getElem?_eq_none past]

theorem advance_busWrite {src : ByteSource} (line : (program s.cfg s.inited op)[k]? = some (.busWrite src)) :
    advance op k tmp s = .next { s with wire := some (byteOf src tmp s) } := by
  rw [advance, line]

theorem advance_goesOn {l : Line} {tmp' : Transient} {s' : State}
    (line : (program s.cfg s.inited op)[k]? = some l) (notWrite : ∀ src, l ≠ .busWrite src)
    (ran : runLine l tmp s = .goesOn tmp' s') :
    advance op k tmp s = .next { s' with seq := .busy op (k + 1) tmp' } := by
  rw [advance, line]
  cases l with
  | busWrite src => exact absurd rfl (notWrite src)
  | _ => simp only [ran]

theorem advance_ended {l : Line} {s' : State} (line : (program s.cfg s.inited op)[k]? = some l)
    (notWrite : ∀ src, l ≠ .busWrite src) (ran : runLine l tmp s = .ended s') :
    advance op k tmp s = .next s' := by
  rw [advance, line]
  cases l with
  | busWrite src => exact absurd rfl (notWrite src)
  | _ => simp only [ran]

theorem advance_next (within : k < (program s.cfg s.inited op).length) : ∃ t, advance op k tmp s = .next t := by
  have line := List.getElem?_eq_getElem within
  generalize (program s.cfg s.inited op)[k] = l at line
  by_cases write : ∃ src, l = .busWrite src
  · obtain ⟨src, rfl⟩ := write
    exact ⟨_, advance_busWrite line⟩
  · have notWrite := not_exists.mp write
    cases ran : runLine l tmp s with
    | goesOn tmp' s' => exact ⟨_, advance_goesOn line notWrite ran⟩
    | ended s' => exact ⟨_, advance_ended line notWrite ran⟩

end Advance

/-- SEQ is past the last line of its operation, and no byte is on the bus port (log 15). -/
def PastEnd (s : State) : Prop :=
  s.wire = none ∧ ∃ op k t, s.seq = .busy op k t ∧ (program s.cfg s.inited op).length ≤ k

theorem step_of_pastEnd {s : State} (past : PastEnd s) : step s = .fault .sequencerPastEnd := by
  obtain ⟨port, op, k, t, busy, long⟩ := past
  rw [step_busy port busy, advance_pastEnd long]

theorem step_next_of_not_pastEnd {s : State} (within : ¬ PastEnd s) : ∃ t, step s = .next t := by
  cases port : s.wire with
  | some b => exact ⟨_, step_wire port⟩
  | none =>
    cases seq : s.seq with
    | busy op k tmp =>
      rw [step_busy port seq]
      exact advance_next (Nat.lt_of_not_le fun long => within ⟨port, op, k, tmp, seq, long⟩)
    | idle =>
      cases pending : s.rsp with
      | some r => exact ⟨_, step_pending port seq pending⟩
      | none =>
        cases requests : s.env.requests with
        | nil => exact ⟨_, step_waits port seq pending requests⟩
        | cons w rest =>
          cases decoded : decodeRequest w with
          | error e => exact ⟨_, step_illegal port seq pending requests decoded⟩
          | ok i =>
            cases size : s.grain with
            | line => exact ⟨_, step_accept size port seq pending requests decoded⟩
            | operation =>
              rw [step_accept_whole size port seq pending requests decoded]
              exact exec_next _ _

/-- Settles O14: `advance` past its list is the only thing a step can do that gives no next state. -/
theorem stepStopsOnlyPastTheLastLine : Obligations.StepStopsOnlyPastTheLastLine := by
  intro s
  by_cases past : PastEnd s
  · rw [step_of_pastEnd past]
    exact ⟨nofun, ⟨fun _ => past, fun _ => ⟨_, rfl⟩⟩⟩
  · obtain ⟨t, next⟩ := step_next_of_not_pastEnd past
    rw [next]
    exact ⟨nofun, ⟨fun ⟨_, fault⟩ => (nomatch fault), fun h => absurd h past⟩⟩

/-! ## Runs of a block in progress -/

theorem run_succ_of_step (M : Host.Core) {s t : M.State} (h : M.step s = .next t) (n : Nat) :
    M.run (n + 1) s = M.run n t := by
  simp only [Host.Core.run, h]

theorem step_of_run_succ (M : Host.Core) {s t : M.State} {n : Nat} (h : M.run (n + 1) s = .next t) :
    ∃ u, M.step s = .next u ∧ M.run n u = .next t := by
  cases first : M.step s with
  | next u => exact ⟨u, rfl, (run_succ_of_step M first n).symm.trans h⟩
  | fault | refused => simp only [Host.Core.run, first, reduceCtorEq] at h

theorem run_step {s t : State} (h : step s = .next t) (n : Nat) : core.run (n + 1) s = core.run n t :=
  run_succ_of_step core h n

/-- A state on the way from `s`: SEQ is BUSY, no response is made and none taken. -/
def OnTheWay (s u : State) : Prop := u.seq ≠ .idle ∧ u.rsp = s.rsp ∧ u.responses = s.responses

/-- Some number of steps leads from `s` to `t`, and every state before is on the way. -/
def RunsTo (s t : State) : Prop :=
  ∃ n, core.run n s = .next t ∧ ∀ k, k < n → ∃ u : State, core.run k s = .next u ∧ OnTheWay s u

theorem RunsTo.last {s t : State} (h : step s = .next t) (busy : s.seq ≠ .idle) : RunsTo s t := by
  refine ⟨1, run_step h 0, fun k before => ?_⟩
  obtain rfl : k = 0 := by omega
  exact ⟨s, rfl, busy, rfl, rfl⟩

theorem RunsTo.head {s t u : State} (h : step s = .next u) (busy : s.seq ≠ .idle) (rsp : u.rsp = s.rsp)
    (responses : u.responses = s.responses) (later : RunsTo u t) : RunsTo s t := by
  obtain ⟨n, reached, between⟩ := later
  refine ⟨n + 1, (run_step h n).trans reached, fun k before => ?_⟩
  cases k with
  | zero => exact ⟨s, rfl, busy, rfl, rfl⟩
  | succ k =>
    obtain ⟨v, ran, busyV, rspV, responsesV⟩ := between k (by omega)
    exact ⟨v, (run_step h k).trans ran, busyV, rspV.trans rsp, responsesV.trans responses⟩

/-! ## Lines, one step at a time -/

/-- `s` with SEQ at line `k` of `op`. -/
def atLine (op : Instr) (k : Nat) (tmp : Transient) (s : State) : State := { s with seq := .busy op k tmp }

theorem byteOf_atLine (src : ByteSource) (tmp : Transient) (op : Instr) (k : Nat) (tmp' : Transient) (s : State) :
    byteOf src tmp (atLine op k tmp' s) = byteOf src tmp s := by
  cases src <;> rfl

/-- What a line does does not depend on SEQ, and neither does where it goes on. -/
theorem runLine_atLine_goesOn {l : Line} {tmp tmp' tmp'' : Transient} {op : Instr} {k : Nat} {s s' : State}
    (ran : runLine l tmp s = .goesOn tmp' s') :
    runLine l tmp (atLine op k tmp'' s) = .goesOn tmp' (atLine op k tmp'' s') := by
  cases l <;> simp only [runLine] at ran
  case busWrite | busRead =>
    split at ran
    case h_1 answer =>
      cases ran
      simp only [runLine, show nextWrite (atLine op k tmp'' s) = nextWrite s from rfl,
        show nextRead (atLine op k tmp'' s) = nextRead s from rfl, answer, byteOf_atLine]
      rfl
    case h_2 => cases ran
  case respond => cases ran
  case writeMode src =>
    cases ran
    simp only [runLine, byteOf_atLine]
    rfl
  all_goals
    cases ran
    rfl

theorem runLine_atLine_ended {l : Line} {tmp tmp' : Transient} {op : Instr} {k : Nat} {s s' : State}
    (ran : runLine l tmp s = .ended s') : runLine l tmp (atLine op k tmp' s) = .ended s' := by
  rcases runLine_ended ran with ⟨st, src, rfl, rfl⟩ | ⟨src, rfl, raised, rfl⟩ | ⟨rfl, raised, rfl⟩
  · cases src <;> rfl
  · simp only [runLine, show nextWrite (atLine op k tmp' s) = nextWrite s from rfl, raised, byteOf_atLine]
    rfl
  · simp only [runLine, show nextRead (atLine op k tmp' s) = nextRead s from rfl, raised]
    rfl

/-- The byte of a line on the bus port, SEQ still at that line (log 5). -/
def offering (b : Byte) (s : State) : State := { s with wire := some b }

theorem step_offering {s : State} (port : s.wire = none) (b : Byte) :
    step (offering b s) = .next (sendCommand b s) := by
  have taken : { offering b s with wire := none } = s := by
    rw [offering, ← port]
  rw [step_wire (show (offering b s).wire = some b from rfl), taken]

section Lines

variable {op : Instr} {k : Nat} {l : Line} {tmp tmp' : Transient} {s s' t : State}

/-- A line after which the operation goes on takes one step, and a BusWrite two: its byte is put on the bus port, then
transmitted (log 5). -/
theorem runsTo_of_goesOn (port : s.wire = none) (line : (program s.cfg s.inited op)[k]? = some l)
    (ran : runLine l tmp s = .goesOn tmp' s') (later : RunsTo (atLine op (k + 1) tmp' s') t) :
    RunsTo (atLine op k tmp s) t := by
  have first := step_busy (s := atLine op k tmp s) port rfl
  by_cases write : ∃ src, l = .busWrite src
  · obtain ⟨src, rfl⟩ := write
    rw [advance_busWrite (s := atLine op k tmp s) line] at first
    have second := step_offering (s := atLine op k tmp s) port (byteOf src tmp (atLine op k tmp s))
    simp only [runLine] at ran
    split at ran <;> cases ran
    next ok =>
    rw [sendCommand_busy_ok (s := atLine op k tmp s) rfl ok, byteOf_atLine] at second
    rw [byteOf_atLine] at first
    exact .head first nofun rfl rfl (.head second nofun rfl rfl later)
  · rw [advance_goesOn (s := atLine op k tmp s) line (not_exists.mp write) (runLine_atLine_goesOn ran)] at first
    obtain ⟨kept, -, rsp⟩ := runLine_goesOn ran
    exact .head first nofun rsp kept.responses later

theorem runsTo_of_ended (port : s.wire = none) (line : (program s.cfg s.inited op)[k]? = some l)
    (ran : runLine l tmp s = .ended t) : RunsTo (atLine op k tmp s) t := by
  have first := step_busy (s := atLine op k tmp s) port rfl
  by_cases write : ∃ src, l = .busWrite src
  · obtain ⟨src, rfl⟩ := write
    rw [advance_busWrite (s := atLine op k tmp s) line] at first
    have second := step_offering (s := atLine op k tmp s) port (byteOf src tmp (atLine op k tmp s))
    simp only [runLine] at ran
    split at ran <;> cases ran
    next raised =>
    rw [sendCommand_busy_error (s := atLine op k tmp s) rfl raised, byteOf_atLine] at second
    rw [byteOf_atLine] at first
    exact .head first nofun rfl rfl (.last second nofun)
  · rw [advance_ended (s := atLine op k tmp s) line (not_exists.mp write) (runLine_atLine_ended ran)] at first
    exact .last first nofun

/-- The registers a line of a step list writes are its operation's own. -/
theorem isWriter_of_mem_program {cfg : Config} {inited : Bool} {i : Instr} {r : Register}
    (mem : l ∈ program cfg inited i) (writes : target l = some r) : IsWriter cfg i r := by
  rcases program_cases cfg inited i with ⟨-, src, lines⟩ | ⟨st, -, lines⟩ | none
  · rw [lines, List.mem_append, List.mem_singleton] at mem
    rcases mem with line | rfl
    · exact isWriter_of_mem_targets (List.mem_filterMap.mpr ⟨l, line, writes⟩)
    · cases writes
  · rw [lines, List.mem_singleton] at mem
    subst mem
    cases writes
  · rw [none] at mem
    cases mem

/-- A step list does not change under its own lines: only INIT writes INITED, and its list does not ask of it. -/
theorem program_goesOn (mem : l ∈ program s.cfg s.inited op) (ran : runLine l tmp s = .goesOn tmp' s') :
    program s'.cfg s'.inited op = program s.cfg s.inited op := by
  rw [(runLine_goesOn ran).1.cfg]
  by_cases writes : target l = some .inited
  · cases isWriter_of_mem_program mem writes
    rfl
  · have same : s'.inited = s.inited := runLine_goesOn_same (r := .inited) ran writes
    rw [same]

end Lines

/-- The lines left of an operation, one step at a time, reach what they give run whole. -/
theorem runsTo_runLines {op : Instr} : ∀ (rest : List Line) (k : Nat) (tmp : Transient) (s : State), s.wire = none →
    (program s.cfg s.inited op).drop k = rest → EndsInResponse rest →
    RunsTo (atLine op k tmp s) (runLines rest tmp s)
  | [], _, _, _, _, _, ⟨_, _, last⟩ => absurd last (by simp)
  | l :: rest, k, tmp, s, port, left, ends => by
    have line : (program s.cfg s.inited op)[k]? = some l := by rw [← List.head?_drop, left, List.head?_cons]
    rw [runLines_cons]
    cases ran : runLine l tmp s with
    | ended t => exact runsTo_of_ended port line ran
    | goesOn tmp' s' =>
      have kept := (runLine_goesOn ran).1
      have left' : (program s'.cfg s'.inited op).drop (k + 1) = rest := by
        rw [program_goesOn (List.mem_of_getElem? line) ran, ← List.drop_drop, left]
        rfl
      have ends' : EndsInResponse rest := by
        obtain ⟨st, src, last⟩ := ends
        rcases List.suffix_cons_iff.mp last with only | later
        · cases only
          cases ran
        · exact ⟨st, src, later⟩
      exact runsTo_of_goesOn port line ran (runsTo_runLines rest (k + 1) tmp' s' (kept.wire.trans port) left' ends')

theorem runsTo_exec {i : Instr} {s t : State} (request : i.isRequest = true) (port : s.wire = none)
    (h : exec i s = .next t) : RunsTo (accepted i s) t := by
  cases (exec_request request s).symm.trans h
  exact runsTo_runLines _ 0 _ (accepted i s) port rfl (program_ends s.cfg s.inited request)

/-- How a step moves SEQ in a BUSY state: the byte of a line is put on the bus port, or one line is done, or the
operation has ended. -/
theorem busy_step_cases {s t : State} {op : Instr} {k : Nat} {tmp : Transient} (busy : s.seq = .busy op k tmp)
    (h : step s = .next t) :
    (t.seq = .busy op k tmp ∧ t.trace = s.trace ∧ s.wire = none ∧ t.wire ≠ none)
      ∨ (∃ tmp', t.seq = .busy op (k + 1) tmp' ∧ (newTransactions s t).length ≤ 1 ∧ t.rsp = s.rsp)
      ∨ (t.seq = .idle ∧ t.rsp ≠ none) := by
  cases port : s.wire with
  | some b =>
    cases (step_wire port).symm.trans h
    have one : (newTransactions s (sendCommand b { s with wire := none })).length ≤ 1 :=
      (congrArg List.length (newTransactions_sendCommand b { s with wire := none })).le
    rcases sendCommand_cases b { s with wire := none } with
      ⟨idle, -⟩ | ⟨op', k', tmp', busy', -, sent⟩ | ⟨-, -, -, -, -, sent⟩
    · cases busy.symm.trans idle
    · cases busy.symm.trans busy'
      rw [sent] at one ⊢
      exact .inr (.inl ⟨tmp, rfl, one, rfl⟩)
    · rw [sent]
      exact .inr (.inr ⟨rfl, nofun⟩)
  | none =>
    rw [step_busy port busy] at h
    rcases advance_cases h with ⟨src, -, rfl⟩ | ⟨l, tmp', s', -, -, ran, rfl⟩ | ⟨l, -, -, ended⟩
    · exact .inl ⟨busy, rfl, rfl, nofun⟩
    · refine .inr (.inl ⟨tmp', rfl, ?_, (runLine_goesOn ran).2.2⟩)
      exact (congrArg List.length (newTransactions_of_trace (runLine_goesOn_trace ran))).trans_le
        (lineTransactions_length_le l tmp s)
    · obtain ⟨-, idle, r, response⟩ := runLine_ended_responds ended
      exact .inr (.inr ⟨idle, by rw [response]; nofun⟩)

/-- Settles O13: each line run whole is one step, or two for a BusWrite, from the same line of SEQ. -/
theorem lineStepsReachTheWholeOperation : Obligations.LineStepsReachTheWholeOperation := by
  constructor
  · intro i s t request port h
    obtain ⟨n, reached, between⟩ := runsTo_exec request port h
    exact ⟨n, reached, fun k before => (between k before).imp fun u ⟨ran, busy, _, _⟩ => ⟨ran, busy⟩⟩
  · intro s t op k tmp busy h
    rcases busy_step_cases busy h with offered | ⟨tmp', seq, few, rsp⟩ | ended
    · exact .inl offered
    · exact .inr (.inl ⟨tmp', seq, by rw [← List.length_eq_zero_iff]; omega, rsp⟩)
    · exact .inr (.inr ended)

/-! ## The handshake -/

theorem isRequest_of_decodeRequest {w : Word} {i : Instr} (h : decodeRequest w = .ok i) : i.isRequest = true := by
  rcases isRequest_or_command i with request | ⟨b, command⟩
  · exact request
  · cases (encode_of_decodeRequest h).symm.trans command

/-- The state in which the word at the port is taken. -/
def taken (rest : List Word) (s : State) : State := { s with env := { s.env with requests := rest } }

/-- Settles O7: acceptance is one step, and the rest is O13's run. -/
theorem stepRunsTheAcceptedOperation : Obligations.StepRunsTheAcceptedOperation := by
  intro s w rest i ready request decoded
  obtain ⟨port, idle, free⟩ := ready
  refine ⟨fun byLine => ?_, fun whole => step_accept_whole whole port idle free request decoded⟩
  have first := step_accept byLine port idle free request decoded
  obtain ⟨t, ran⟩ := exec_next i (taken rest s)
  obtain ⟨n, reached, -⟩ := runsTo_exec (s := taken rest s) (isRequest_of_decodeRequest decoded) port ran
  exact ⟨first, n + 1, (run_step first n).trans (reached.trans ran.symm)⟩

/-- Settles O12: an illegal word and a whole operation answer in one step; line by line the response ends a run in
which none was pending. -/
theorem eachRequestGetsOneResponse : Obligations.EachRequestGetsOneResponse := by
  intro s w rest ready request
  obtain ⟨port, idle, free⟩ := ready
  have before : ∀ k, k < 1 → ∃ u : State, core.run k s = .next u ∧ u.rsp = none ∧ u.responses = s.responses := by
    intro k first
    obtain rfl : k = 0 := by omega
    exact ⟨s, rfl, free, rfl⟩
  cases decoded : decodeRequest w with
  | error e =>
    have first := step_illegal port idle free request decoded
    exact ⟨1, _, ⟨.errIllegalRequest, 0⟩, run_step first 0, rfl, rfl, port, rfl, rfl, fun _ => rfl, before⟩
  | ok i =>
    have operation := isRequest_of_decodeRequest decoded
    obtain ⟨t, ran⟩ := exec_next i (taken rest s)
    have kept := exec_keeps ran
    obtain ⟨r, response, ended, -⟩ := operationsReportOnlyTheirErrors i (taken rest s) t operation ran
    cases size : s.grain with
    | operation =>
      have first := (step_accept_whole size port idle free request decoded).trans ran
      exact ⟨1, t, r, run_step first 0, response, ended, kept.wire.trans port, kept.requests, kept.responses,
        fun _ => rfl, before⟩
    | line =>
      have first := step_accept size port idle free request decoded
      obtain ⟨n, reached, between⟩ := runsTo_exec (s := taken rest s) operation port ran
      refine ⟨n + 1, t, r, (run_step first n).trans reached, response, ended, kept.wire.trans port, kept.requests,
        kept.responses, nofun, fun k within => ?_⟩
      cases k with
      | zero => exact ⟨s, rfl, free, rfl⟩
      | succ k =>
        obtain ⟨u, reachedU, -, rsp, responses⟩ := between k (by omega)
        exact ⟨u, (run_step first k).trans reachedU, rsp.trans free, responses⟩

/-- The response is held for exactly the host's delay (log 6). -/
theorem run_holds {r : Response} : ∀ (n : Nat) (s : State), s.wire = none → s.seq = .idle → s.rsp = some r →
    nextDelay s = n →
      core.run (n + 1) s = .next (takeResponse r s)
        ∧ ∀ k, k ≤ n → ∃ delays, core.run k s = .next { s with env := { s.env with delays := delays } }
  | 0, s, port, idle, pending, delay => by
    have first := step_pending port idle pending
    rw [holdOrTake, delay] at first
    refine ⟨run_step first 0, fun k now => ⟨s.env.delays, ?_⟩⟩
    obtain rfl : k = 0 := by omega
    rfl
  | n + 1, s, port, idle, pending, delay => by
    have first := step_pending port idle pending
    rw [holdOrTake, delay] at first
    obtain ⟨taken, held⟩ := run_holds n { s with env := { s.env with delays := n :: s.env.delays.tail } } port idle
      pending rfl
    refine ⟨(run_step first (n + 1)).trans taken, fun k within => ?_⟩
    cases k with
    | zero => exact ⟨s.env.delays, rfl⟩
    | succ k =>
      obtain ⟨delays, ran⟩ := held k (by omega)
      exact ⟨delays, (run_step first k).trans ran⟩

/-- Settles O10: by induction on the host's delay; each step of it counts one off. -/
theorem idleBlockGivesItsResponseOrWaits : Obligations.IdleBlockGivesItsResponseOrWaits := by
  constructor
  · intro s r port idle pending
    obtain ⟨given, held⟩ := run_holds (nextDelay s) s port idle pending rfl
    exact ⟨given, held, fun n rest script => nextDelay_of_script script⟩
  · intro s ready noRequest
    obtain ⟨port, idle, free⟩ := ready
    exact step_waits port idle free noRequest

end Sys2Proof.Machine

/-!
PROOFS. The invariant (10_state.md sections 1 and 3, 42_calibration.md section 1, 40_construction.md): with INITED = 1
the calibration registers hold legal values, and every step keeps it, the steps inside an operation too.
-/

namespace Sys2Proof.Machine

open Sys2Proof.Safety

/-- Settles O15: the block is idle at reset, and INITED is 0. -/
theorem soundAtReset : Obligations.SoundAtReset :=
  ⟨nofun, nofun, nofun, rfl, rfl⟩

/-! ## Each calibration register is written once -/

/-- The registers the invariant asks of (10_state.md R21). -/
def calibration : List Register := [.addr, .sens, .mtreg, .acc, .res]

/-- The calibration registers some lines write, in order. -/
def calibrationTargets (ls : List Line) : List Register := (targets ls).filter (· ∈ calibration)

theorem calibrationTargets_append (front back : List Line) :
    calibrationTargets (front ++ back) = calibrationTargets front ++ calibrationTargets back := by
  simp [calibrationTargets]

theorem calibrationTargets_setResProc (cfg : Config) (r : BitVec 16) :
    calibrationTargets (setResProc cfg r) = [] ∨ calibrationTargets (setResProc cfg r) = [.res] := by
  unfold setResProc
  split
  · right
    split <;> rfl
  · exact .inl rfl

theorem calibrationTargets_resetProc (cfg : Config) : calibrationTargets (resetProc cfg) = [] := by
  unfold resetProc recordReset
  split <;> rfl

theorem calibrationTargets_body_nodup (cfg : Config) (i : Instr) : (calibrationTargets (body cfg i)).Nodup := by
  cases i with
  | init addr =>
    have lines : calibrationTargets (body cfg (.init addr))
        = [.addr, .sens, .mtreg, .acc] ++ calibrationTargets (setResProc cfg resDefault) := by
      have last : calibrationTargets [.writeInited true] = [] := rfl
      simp only [body, initBody, initProc, calibrationTargets_append, last, List.append_nil]
      rfl
    rw [lines]
    rcases calibrationTargets_setResProc cfg resDefault with none | res
    · rw [none]
      decide
    · rw [res]
      decide
  | setRes r =>
    rcases calibrationTargets_setResProc cfg r with none | res
    · exact none ▸ List.nodup_nil
    · exact res ▸ List.nodup_singleton _
  | reset => exact calibrationTargets_resetProc cfg ▸ List.nodup_nil
  | getValue =>
    have lines : calibrationTargets (body cfg .getValue) = [] := by
      rw [body, doMeasurement, List.append_assoc, List.append_assoc, calibrationTargets_append,
        calibrationTargets_resetProc]
      rfl
    exact lines ▸ List.nodup_nil
  | setSens f => exact (by decide : [Register.sens, .mtreg].Nodup)
  | setAcc a => exact List.nodup_singleton _
  | setMode | getSens | getAcc | getRes | getStatus | powerDown | powerOn | resetDr | contHRes | contHRes2
  | contLRes | oneHRes | oneHRes2 | oneLRes | mtregHi | mtregLo => exact List.nodup_nil

theorem calibrationTargets_program_nodup (cfg : Config) (inited : Bool) (i : Instr) :
    (calibrationTargets (program cfg inited i)).Nodup := by
  rcases program_cases cfg inited i with ⟨-, src, lines⟩ | ⟨st, -, lines⟩ | none
  · have last : calibrationTargets [.respond .ok src] = [] := rfl
    rw [lines, calibrationTargets_append, last, List.append_nil]
    exact calibrationTargets_body_nodup cfg i
  · exact lines ▸ List.nodup_nil
  · exact none ▸ List.nodup_nil

theorem mem_calibrationTargets {ls : List Line} {l : Line} {r : Register} (mem : l ∈ ls) (writes : target l = some r)
    (cal : r ∈ calibration) : r ∈ calibrationTargets ls :=
  List.mem_filter.mpr ⟨List.mem_filterMap.mpr ⟨l, mem, writes⟩, decide_eq_true cal⟩

/-- No line before the one that writes a calibration register writes it too. -/
theorem target_ne_of_before {ls : List Line} (once : (calibrationTargets ls).Nodup) {k : Nat} {l : Line}
    (line : ls[k]? = some l) {r : Register} (writes : target l = some r) (cal : r ∈ calibration) :
    ∀ l' ∈ ls.take k, target l' ≠ some r := by
  intro l' before writes'
  obtain ⟨within, rfl⟩ := List.getElem?_eq_some_iff.mp line
  rw [← List.take_append_drop k ls, calibrationTargets_append, List.drop_eq_getElem_cons within] at once
  exact (List.nodup_append.mp once).2.2 r (mem_calibrationTargets before writes' cal) r
    (mem_calibrationTargets List.mem_cons_self writes cal) rfl

/-! ## The lines SEQ counts have been done -/

theorem written_of_goesOn {l : Line} {tmp tmp' : Transient} {s s' : State} (ran : runLine l tmp s = .goesOn tmp' s') :
    written s' l = true := by
  cases l with
  | writeAddr | writeSens | writeMtreg | writeAcc | writeRes =>
    cases ran
    exact decide_eq_true rfl
  | writeInited | busStart | recordStart | busWrite | writeMode | sleep | busRead | respond => rfl

theorem written_of_same {l : Line} {s s' : State} (cfg : s'.cfg = s.cfg)
    (same : ∀ r ∈ calibration, target l = some r → r.Same s s') (h : written s l = true) : written s' l = true := by
  cases l with
  | writeAddr a =>
    have reg : s'.addr = s.addr := same .addr (by decide) rfl
    simpa [written, reg] using h
  | writeSens f =>
    have reg : s'.sens = s.sens := same .sens (by decide) rfl
    simpa [written, reg, cfg] using h
  | writeMtreg f =>
    have reg : s'.mtreg = s.mtreg := same .mtreg (by decide) rfl
    simpa [written, reg, cfg] using h
  | writeAcc a =>
    have reg : s'.acc = s.acc := same .acc (by decide) rfl
    simpa [written, reg] using h
  | writeRes r =>
    have reg : s'.res = s.res := same .res (by decide) rfl
    simpa [written, reg] using h
  | writeInited | busStart | recordStart | busWrite | writeMode | sleep | busRead | respond => rfl

section Line

variable {s s' : State} {op : Instr} {k : Nat} {tmp tmp' : Transient} {l : Line}

/-- Every line of `op` before index `k` has been done in `s`. -/
def DoneBefore (op : Instr) (k : Nat) (s : State) : Prop :=
  ∀ l ∈ (program s.cfg s.inited op).take k, written s l = true

theorem linesDone_iff (busy : s.seq = .busy op k tmp) : linesDone s = true ↔ DoneBefore op k s := by
  simp [linesDone, busy, DoneBefore]

theorem doneBefore_succ (line : (program s.cfg s.inited op)[k]? = some l)
    (ran : runLine l tmp s = .goesOn tmp' s') (done : DoneBefore op k s) : DoneBefore op (k + 1) s' := by
  intro l' mem
  rw [program_goesOn (List.mem_of_getElem? line) ran, List.take_add_one, line, List.mem_append] at mem
  rcases mem with before | this
  · refine written_of_same (runLine_goesOn ran).1.cfg (fun r cal writes => runLine_goesOn_same ran fun again => ?_)
      (done l' before)
    exact target_ne_of_before (calibrationTargets_program_nodup _ _ _) line again cal l' before writes
  · obtain rfl : l' = l := by simpa using this
    exact written_of_goesOn ran

end Line

/-! ## Legal values -/

/-- The register's value lies in its range (10_state.md R21, R23, R24, R26, R28). -/
def Register.Valid (r : Register) (s : State) : Prop :=
  match r with
  | .addr => s.addr = 0x23 ∨ s.addr = 0x5C
  | .sens => 450 ≤ s.sens.toNat ∧ s.sens.toNat ≤ 3681
  | .acc => 960 ≤ s.acc.toNat ∧ s.acc.toNat ≤ 1440
  | .res => 1 ≤ s.res.toNat ∧ s.res.toNat ≤ 6
  | .inited => True
  | .busStartFail => True
  | .mtreg => True
  | .mode => True

theorem ranged_iff (s : State) : Ranged s ↔ ∀ r : Register, r.Valid s := by
  constructor
  · rintro ⟨addr, sens, acc, res⟩ (_ | _ | _ | _ | _ | _ | _ | _)
    exacts [trivial, trivial, addr, sens, trivial, acc, trivial, res]
  · exact fun valid => ⟨valid .addr, valid .sens, valid .acc, valid .res⟩

theorem Register.Valid.of_same {r : Register} {s t : State} (valid : r.Valid s) (same : r.Same s t) : r.Valid t := by
  cases r <;> simp only [Register.Same, Register.Valid] at same valid ⊢ <;> rwa [same]

theorem paired_of_same {s t : State} (paired : Paired s) (cfg : t.cfg = s.cfg) (sens : Register.sens.Same s t)
    (mtreg : Register.mtreg.Same s t) : Paired t := by
  have sensEq : t.sens = s.sens := sens
  have mtregEq : t.mtreg = s.mtreg := mtreg
  rwa [Paired, cfg, sensEq, mtregEq]

/-- The pair of SensClamp is a pair of the invariant, in all three bands (42_calibration.md R140). -/
theorem sensClamp_paired (tie : TieRule) (f : Code) : (sensClamp tie f).2.toNat
    = min (max (roundTie tie ((sensClamp tie f).1.toNat * 69) 1000) 31) 254 := by
  rcases Nat.lt_or_ge f.toNat 450 with low | low
  · rw [sensClamp_of_le_449 tie (Nat.le_of_lt_succ low)]
    cases tie <;> decide
  · rcases Nat.lt_or_ge 3681 f.toNat with high | high
    · rw [sensClamp_of_ge_3682 tie high]
      cases tie <;> decide
    · have range := roundTie_mem_of_verbatim tie low high
      rw [toNat_sensClamp_mtreg_of_verbatim tie low high, sensClamp_of_verbatim tie low high]
      dsimp only
      omega

theorem paired_of_sensClamp {s : State} {f : Code} (sens : s.sens = (sensClamp s.cfg.mtregTie f).1)
    (mtreg : s.mtreg = (sensClamp s.cfg.mtregTie f).2) : Paired s := by
  rw [Paired, sens, mtreg]
  exact sensClamp_paired _ f

/-- SET_RES records a legal index only (41_mode.md R125, R126). -/
theorem writeRes_range {cfg : Config} {inited : Bool} {n : BitVec 16} {v : BitVec 3}
    (mem : .writeRes v ∈ program cfg inited (.setRes n)) : 1 ≤ v.toNat ∧ v.toNat ≤ 6 := by
  rcases program_cases cfg inited (.setRes n) with ⟨admitted, src, lines⟩ | ⟨st, -, lines⟩ | none
  · obtain ⟨low, high⟩ := (resLegal_iff n).mp (Bool.and_eq_true_iff.mp admitted).2
    have index : v = n.setWidth 3 := by
      simp only [lines, body, setResProc] at mem
      split at mem
      · split at mem <;> simpa [setModeProc] using mem
      · simp at mem
    have small : v.toNat = n.toNat := by
      rw [index, BitVec.toNat_setWidth]
      omega
    omega
  · simp [lines] at mem
  · simp [none] at mem

/-- What a line of an operation other than INIT writes is in range. -/
theorem valid_of_line {op : Instr} {l : Line} {tmp tmp' : Transient} {s s' : State} (notInit : ∀ a, op ≠ .init a)
    (mem : l ∈ program s.cfg s.inited op) (ran : runLine l tmp s = .goesOn tmp' s') {r : Register}
    (writes : target l = some r) : r.Valid s' := by
  have writer := isWriter_of_mem_program mem writes
  cases l <;> simp only [target, Option.some.injEq, reduceCtorEq] at writes <;> subst writes
  case writeAddr a =>
    cases writer
    exact absurd rfl (notInit _)
  case writeSens f =>
    cases ran
    exact (sensClamp_range _ f).1
  case writeAcc a =>
    cases ran
    exact accClamp_range a
  case writeRes v =>
    cases ran
    cases writer
    case init => exact absurd rfl (notInit _)
    case res n => exact writeRes_range mem
  all_goals trivial

/-! ## Where INIT stands -/

/-- INIT's lines between `INITED <- 0` and `INITED <- 1` (40_construction.md R100). -/
def initMiddle (cfg : Config) (addr : BitVec 16) : List Line := .writeAddr (addr.extractLsb' 0 7) :: initProc cfg

theorem initLines_of_legal {addr : BitVec 16} (legal : addrLegal addr = true) (cfg : Config) :
    initLines cfg addr = .writeInited false :: (initMiddle cfg addr ++ [.writeInited true, .respond .ok .zero]) := by
  simp only [initLines, if_pos legal, initMiddle, List.cons_append, List.nil_append]

theorem target_initMiddle {cfg : Config} {addr : BitVec 16} {l : Line} (mem : l ∈ initMiddle cfg addr) :
    target l ≠ some .inited := by
  have resProc : Register.inited ∉ targets (setResProc cfg resDefault) := fun bad => by
    have := mem_targets_setResProc bad
    simp at this
  have middle : targets (initMiddle cfg addr)
      = [.addr, .busStartFail, .mode, .sens, .mtreg, .acc] ++ targets (setResProc cfg resDefault) := by
    rw [show initMiddle cfg addr = [.writeAddr (addr.extractLsb' 0 7)] ++ initProc cfg from rfl, initProc]
    simp only [targets_append]
    rfl
  intro writes
  have bad : Register.inited ∈ targets (initMiddle cfg addr) := List.mem_filterMap.mpr ⟨l, mem, writes⟩
  rw [middle, List.mem_append] at bad
  exact bad.elim (by decide) resProc

/-- Which line INIT is at, and what stands before it. -/
inductive InitAt (cfg : Config) (addr : BitVec 16) (k : Nat) (l : Line) : Prop where
  | clears (first : k = 0) (line : l = .writeInited false)
  | constructs (later : 0 < k) (line : l ∈ initMiddle cfg addr)
      (before : .writeInited true ∉ (initLines cfg addr).take k)
  | sets (later : 0 < k) (line : l = .writeInited true) (before : .writeInited true ∉ (initLines cfg addr).take k)
      (middle : initMiddle cfg addr ⊆ (initLines cfg addr).take k)
  | answers (line : l = .respond .ok .zero) (before : .writeInited true ∈ (initLines cfg addr).take k)

theorem initAt_of_line {cfg : Config} {addr : BitVec 16} {k : Nat} {l : Line} (legal : addrLegal addr = true)
    (line : (initLines cfg addr)[k]? = some l) : InitAt cfg addr k l := by
  have notMiddle : .writeInited true ∉ initMiddle cfg addr := fun mem => target_initMiddle mem rfl
  rw [initLines_of_legal legal] at line
  cases k with
  | zero => exact .clears rfl (Option.some.inj line).symm
  | succ j =>
    rw [List.getElem?_cons_succ] at line
    have front : (initLines cfg addr).take (j + 1)
        = .writeInited false :: (initMiddle cfg addr ++ [Line.writeInited true, .respond .ok .zero]).take j := by
      rw [initLines_of_legal legal, List.take_succ_cons]
    rcases Nat.lt_trichotomy j (initMiddle cfg addr).length with inside | edge | past
    · rw [List.getElem?_append_left inside] at line
      refine .constructs (Nat.succ_pos j) (List.mem_of_getElem? line) ?_
      rw [front, List.take_append_of_le_length inside.le]
      simpa using fun mem => notMiddle (List.mem_of_mem_take mem)
    · rw [List.getElem?_append_right edge.ge, edge, Nat.sub_self] at line
      refine .sets (Nat.succ_pos j) (Option.some.inj line).symm ?_ ?_ <;>
        rw [front, edge, List.take_left]
      · simpa using notMiddle
      · exact List.subset_cons_self _ _
    · rw [List.getElem?_append_right past.le] at line
      obtain ⟨d, rfl⟩ := Nat.exists_eq_add_of_lt past
      rw [show (initMiddle cfg addr).length + d + 1 - (initMiddle cfg addr).length = d + 1 by omega] at line
      refine .answers ?_ ?_
      · cases d with
        | zero => exact (Option.some.inj line).symm
        | succ => cases line
      · rw [front, Nat.add_assoc, List.take_length_add_append]
        simp

/-- The values INIT's lines leave are legal (10_state.md R39). -/
theorem calibrated_of_initMiddle {s : State} {cfg : Config} {addr : BitVec 16} (legal : addrLegal addr = true)
    (done : ∀ l ∈ initMiddle cfg addr, written s l = true) : Calibrated s := by
  have address : s.addr = addr.extractLsb' 0 7 :=
    of_decide_eq_true (done (.writeAddr _) (by simp [initMiddle]))
  have sens : s.sens = (sensClamp s.cfg.mtregTie sensDefault).1 :=
    of_decide_eq_true (done (.writeSens _) (by simp [initMiddle, initProc, setSensProc]))
  have mtreg : s.mtreg = (sensClamp s.cfg.mtregTie sensDefault).2 :=
    of_decide_eq_true (done (.writeMtreg _) (by simp [initMiddle, initProc, setSensProc]))
  have acc : s.acc = accClamp accDefault :=
    of_decide_eq_true (done (.writeAcc _) (by simp [initMiddle, initProc, setAccProc]))
  have res : s.res = resDefault.setWidth 3 :=
    of_decide_eq_true (done (.writeRes _) (by simp [initMiddle, initProc, setResProc, modeList_default]))
  refine ⟨⟨?_, sens ▸ (sensClamp_range _ _).1, acc ▸ accClamp_range _, by rw [res]; decide⟩,
    paired_of_sensClamp sens mtreg⟩
  rw [address]
  rcases (addrLegal_iff addr).mp legal with rfl | rfl
  · exact .inl rfl
  · exact .inr rfl

/-! ## The flags of the invariant in a BUSY state -/

section Busy

variable {s s' : State} {op : Instr} {k : Nat} {tmp tmp' : Transient} {l : Line}

theorem sensPartWay_setSens {f : Code} (busy : s.seq = .busy (.setSens f) k tmp) :
    sensPartWay s = decide (k = 1) := by
  simp [sensPartWay, busy]

theorem sensPartWay_of_not_setSens (busy : s.seq = .busy op k tmp) (other : ∀ f, op ≠ .setSens f) :
    sensPartWay s = false := by
  rw [sensPartWay, busy]
  cases op with
  | setSens f => exact absurd rfl (other f)
  | _ => rfl

theorem initPartWay_iff {addr : BitVec 16} (busy : s.seq = .busy (.init addr) k tmp) :
    initPartWay s = true
      ↔ addrLegal addr = true ∧ 0 < k ∧ .writeInited true ∉ (initLines s.cfg addr).take k := by
  simp [initPartWay, busy, and_assoc]

theorem initPartWay_of_not_init (busy : s.seq = .busy op k tmp) (notInit : ∀ a, op ≠ .init a) :
    initPartWay s = false := by
  rw [initPartWay, busy]
  cases op with
  | init a => exact absurd rfl (notInit a)
  | _ => rfl

/-- The bus port's byte is that of the next line, a BusWrite (log 5). -/
theorem line_of_port {b : Byte} (holds : portHoldsItsByte s = true) (busy : s.seq = .busy op k tmp)
    (port : s.wire = some b) :
    ∃ src, (program s.cfg s.inited op)[k]? = some (.busWrite src) ∧ b = byteOf src tmp s := by
  rw [portHoldsItsByte, busy, port] at holds
  dsimp only at holds
  cases line : (program s.cfg s.inited op)[k]? with
  | none =>
    rw [line] at holds
    cases holds
  | some l =>
    rw [line] at holds
    cases l with
    | busWrite src => exact ⟨src, rfl, of_decide_eq_true holds⟩
    | _ => cases holds

/-! ## One line -/

/-- The block once the line at `k` is done. -/
def afterLine (op : Instr) (k : Nat) (tmp : Transient) (s : State) : State :=
  { atLine op (k + 1) tmp s with wire := none }

variable (line : (program s.cfg s.inited op)[k]? = some l) (ran : runLine l tmp s = .goesOn tmp' s')
include line ran

theorem inited_of_not_init (notInit : ∀ a, op ≠ .init a) : s'.inited = s.inited :=
  runLine_goesOn_same (r := .inited) ran fun writes => by
    cases isWriter_of_mem_program (List.mem_of_getElem? line) writes
    exact notInit _ rfl

theorem ranged_of_not_init (notInit : ∀ a, op ≠ .init a) (ranged : Ranged s) : Ranged s' := by
  refine (ranged_iff s').mpr fun r => ?_
  by_cases writes : target l = some r
  · exact valid_of_line notInit (List.mem_of_getElem? line) ran writes
  · exact ((ranged_iff s).mp ranged r).of_same (runLine_goesOn_same ran writes)

/-- Outside SET_SENS and INIT no line touches the pair. -/
theorem paired_of_other (notInit : ∀ a, op ≠ .init a) (notSetSens : ∀ f, op ≠ .setSens f) (paired : Paired s) :
    Paired s' := by
  have mem := List.mem_of_getElem? line
  refine paired_of_same paired (runLine_goesOn ran).1.cfg (runLine_goesOn_same ran fun writes => ?_)
    (runLine_goesOn_same ran fun writes => ?_)
  · cases isWriter_of_mem_program mem writes
    · exact notInit _ rfl
    · exact notSetSens _ rfl
  · cases isWriter_of_mem_program mem writes
    · exact notInit _ rfl
    · exact notSetSens _ rfl

end Busy

/-- The lines of a SET_SENS on an initialised block, by index (42_calibration.md R143). -/
theorem setSens_line_cases {cfg : Config} {f : Code} {k : Nat} {l : Line}
    (line : (program cfg true (.setSens f))[k]? = some l) :
    (k = 0 ∧ l = .writeSens f) ∨ (k = 1 ∧ l = .writeMtreg f) ∨ (2 ≤ k ∧ target l = none) := by
  rcases k with _ | _ | _ | _ | _ | k
  · exact .inl ⟨rfl, (Option.some.inj line).symm⟩
  · exact .inr (.inl ⟨rfl, (Option.some.inj line).symm⟩)
  iterate 3 exact .inr (.inr ⟨by omega, by cases line; rfl⟩)
  · cases line

/-- MTREG follows SENS by one line, and afterwards both stay (42_calibration.md R143). -/
theorem paired_of_setSens {s s' : State} {f : Code} {k : Nat} {tmp tmp' : Transient} {l : Line}
    (inited : s.inited = true) (line : (program s.cfg s.inited (.setSens f))[k]? = some l)
    (ran : runLine l tmp s = .goesOn tmp' s') (done : DoneBefore (.setSens f) k s) (past : k ≠ 0)
    (paired : k ≠ 1 → Paired s) : Paired s' := by
  have lines := line
  rw [inited] at lines
  rcases setSens_line_cases lines with ⟨rfl, -⟩ | ⟨rfl, rfl⟩ | ⟨late, none⟩
  · exact absurd rfl past
  · have sens : s.sens = (sensClamp s.cfg.mtregTie f).1 :=
      of_decide_eq_true (done (.writeSens f) (by rw [inited]; exact List.mem_cons_self))
    cases ran
    exact paired_of_sensClamp sens rfl
  · refine paired_of_same (paired (by omega)) (runLine_goesOn ran).1.cfg (runLine_goesOn_same ran ?_)
      (runLine_goesOn_same ran ?_) <;> simp [none]

/-! ## Every step keeps the invariant -/

theorem sound_of_idle {s : State} (idle : s.seq = .idle) (calibrated : s.inited = true → Calibrated s) : Sound s where
  ranged inited := (calibrated inited).1
  paired inited _ := (calibrated inited).2
  notInited := by simp [initPartWay, idle]
  done := by simp [linesDone, idle]
  port := by simp [portHoldsItsByte, idle]

theorem calibrated_of_sound_idle {s : State} (sound : Sound s) (idle : s.seq = .idle) (inited : s.inited = true) :
    Calibrated s :=
  ⟨sound.ranged inited, sound.paired inited (by simp [sensPartWay, idle])⟩

theorem written_afterLine (op : Instr) (k : Nat) (tmp : Transient) (s : State) (l : Line) :
    written (afterLine op k tmp s) l = written s l := by
  cases l <;> rfl

section Busy

variable {s s' : State} {op : Instr} {k : Nat} {tmp tmp' : Transient} {l : Line} (sound : Sound s)
  (busy : s.seq = .busy op k tmp) (line : (program s.cfg s.inited op)[k]? = some l)
include sound busy line

theorem linesDone_afterLine (ran : runLine l tmp s = .goesOn tmp' s') :
    linesDone (afterLine op k tmp' s') = true := by
  have done := doneBefore_succ line ran ((linesDone_iff busy).mp sound.done)
  exact (linesDone_iff rfl).mpr fun l' mem => (written_afterLine _ _ _ _ _).trans (done l' mem)

theorem sound_afterLine_of_not_init (notInit : ∀ a, op ≠ .init a) (ran : runLine l tmp s = .goesOn tmp' s') :
    Sound (afterLine op k tmp' s') where
  ranged inited :=
    ranged_of_not_init (s' := s') line ran notInit
      (sound.ranged ((inited_of_not_init line ran notInit).symm.trans inited))
  paired inited settled := by
    have before : s.inited = true := (inited_of_not_init line ran notInit).symm.trans inited
    by_cases setSens : ∃ f, op = .setSens f
    · obtain ⟨f, rfl⟩ := setSens
      rw [sensPartWay_setSens rfl] at settled
      refine paired_of_setSens (s' := s') before line ran ((linesDone_iff busy).mp sound.done) (by simpa using settled)
        fun notOne => sound.paired before ?_
      simpa [sensPartWay_setSens busy] using notOne
    · have other := not_exists.mp setSens
      exact paired_of_other (s' := s') line ran notInit other
        (sound.paired before (sensPartWay_of_not_setSens busy other))
  notInited partWay :=
    absurd partWay (by rw [initPartWay_of_not_init (s := afterLine op k tmp' s') rfl notInit]; nofun)
  done := linesDone_afterLine sound busy line ran
  port := rfl

omit sound busy in
/-- An INIT whose address is illegal has no line after which it goes on. -/
theorem addrLegal_of_goesOn {addr : BitVec 16} (init : op = .init addr) (ran : runLine l tmp s = .goesOn tmp' s') :
    addrLegal addr = true := by
  subst init
  by_contra illegal
  rw [program, initLines, if_neg illegal] at line
  obtain rfl := List.mem_singleton.mp (List.mem_of_getElem? line)
  cases ran

/-- INIT sets INITED only when its other registers hold their values, and keeps it 0 until then. -/
theorem init_goesOn {addr : BitVec 16} (init : op = .init addr) (ran : runLine l tmp s = .goesOn tmp' s') :
    s'.inited = false ∨ (Calibrated s' ∧ .writeInited true ∈ (initLines s.cfg addr).take (k + 1)) := by
  have legal := addrLegal_of_goesOn line init ran
  subst init
  have done := (linesDone_iff busy).mp sound.done
  have mem : l ∈ (initLines s.cfg addr).take (k + 1) := by
    rw [List.take_add_one, show (initLines s.cfg addr)[k]? = some l from line]
    simp
  cases initAt_of_line legal line with
  | clears _ clear =>
    subst clear
    cases ran
    exact .inl rfl
  | constructs later middle before =>
    have notYet : s.inited = false := sound.notInited ((initPartWay_iff busy).mpr ⟨legal, later, before⟩)
    have same : s'.inited = s.inited := runLine_goesOn_same (r := .inited) ran (target_initMiddle middle)
    exact .inl (same.trans notYet)
  | sets _ set _ middle =>
    subst set
    cases ran
    exact .inr ⟨calibrated_of_initMiddle (s := s) legal fun l' inMiddle => done l' (middle inMiddle), mem⟩
  | answers answer =>
    subst answer
    cases ran

theorem sound_afterLine_of_init {addr : BitVec 16} (init : op = .init addr)
    (ran : runLine l tmp s = .goesOn tmp' s') : Sound (afterLine op k tmp' s') := by
  have goesOn := init_goesOn sound busy line init ran
  have calibrated : s'.inited = true → Calibrated s' := fun inited =>
    goesOn.elim (fun cleared => absurd (inited.symm.trans cleared) nofun) (·.1)
  refine ⟨fun inited => (calibrated inited).1, fun inited _ => (calibrated inited).2, fun partWay => ?_,
    linesDone_afterLine sound busy line ran, rfl⟩
  subst init
  obtain ⟨-, -, notSet⟩ := (initPartWay_iff rfl).mp partWay
  have cfg : (afterLine (.init addr) k tmp' s').cfg = s.cfg := (runLine_goesOn ran).1.cfg
  rw [cfg] at notSet
  exact goesOn.elim id fun ⟨_, set⟩ => absurd set notSet

theorem sound_afterLine (ran : runLine l tmp s = .goesOn tmp' s') : Sound (afterLine op k tmp' s') := by
  by_cases init : ∃ addr, op = .init addr
  · obtain ⟨addr, init⟩ := init
    exact sound_afterLine_of_init sound busy line init ran
  · exact sound_afterLine_of_not_init sound busy line (not_exists.mp init) ran

omit sound busy line in
theorem same_of_ended {t : State} (ended : runLine l tmp s = .ended t) (r : Register) : r.Same s t := by
  rcases runLine_ended ended with ⟨st, src, -, rfl⟩ | ⟨src, -, -, rfl⟩ | ⟨-, -, rfl⟩
  · exact respond_same r _ _ _
  · exact (busWrite_same r _ _).trans (respond_same r _ _ _)
  · exact (busRead_same r _).trans (respond_same r _ _ _)

/-- An operation does not end between the two register writes of SET_SENS. -/
theorem calibrated_of_ended {t : State} (ended : runLine l tmp s = .ended t) (inited : s.inited = true) :
    Calibrated s := by
  refine ⟨sound.ranged inited, sound.paired inited ?_⟩
  by_cases setSens : ∃ f, op = .setSens f
  · obtain ⟨f, rfl⟩ := setSens
    rw [sensPartWay_setSens busy, decide_eq_false_iff_not]
    rintro rfl
    rw [inited] at line
    rcases setSens_line_cases line with ⟨zero, -⟩ | ⟨-, rfl⟩ | ⟨late, -⟩
    · omega
    · cases ended
    · omega
  · exact sensPartWay_of_not_setSens busy (not_exists.mp setSens)

theorem sound_of_ended {t : State} (ended : runLine l tmp s = .ended t) : Sound { t with wire := none } := by
  have same := same_of_ended ended
  have idle : t.seq = .idle := (runLine_ended_responds ended).2.1
  refine sound_of_idle idle fun inited => ?_
  have before : s.inited = true := (same .inited).symm.trans inited
  obtain ⟨ranged, paired⟩ := calibrated_of_ended sound busy line ended before
  exact ⟨(ranged_iff t).mpr fun r => ((ranged_iff s).mp ranged r).of_same (same r),
    paired_of_same paired (runLine_ended_responds ended).1.cfg (same .sens) (same .mtreg)⟩

end Busy

theorem with_wire_none {s : State} (port : s.wire = none) : { s with wire := none } = s := by
  rw [← port]

/-- The byte of a BusWrite line put on the bus port changes nothing else. -/
theorem sound_offering {s : State} {op : Instr} {k : Nat} {tmp : Transient} {src : ByteSource} (sound : Sound s)
    (busy : s.seq = .busy op k tmp) (line : (program s.cfg s.inited op)[k]? = some (.busWrite src)) :
    Sound (offering (byteOf src tmp s) s) where
  ranged := sound.ranged
  paired := sound.paired
  notInited := sound.notInited
  done := sound.done
  port := by
    have same : byteOf src tmp s = byteOf src tmp (offering (byteOf src tmp s) s) := by cases src <;> rfl
    simp only [portHoldsItsByte, offering, busy, line, Option.any_some]
    exact decide_eq_true same

/-- A step inside an operation. -/
theorem sound_of_busy_step {s t : State} {op : Instr} {k : Nat} {tmp : Transient} (sound : Sound s)
    (busy : s.seq = .busy op k tmp) (h : step s = .next t) : Sound t := by
  cases port : s.wire with
  | some b =>
    obtain ⟨src, line, rfl⟩ := line_of_port sound.port busy port
    cases (step_wire port).symm.trans h
    cases answer : nextWrite s with
    | ok =>
      rw [sendCommand_busy_ok (s := { s with wire := none }) busy answer]
      exact sound_afterLine sound busy line (tmp' := tmp) (s' := busWrite (byteOf src tmp s) s)
        (by simp only [runLine, answer])
    | busError =>
      rw [sendCommand_busy_error (s := { s with wire := none }) busy answer]
      exact sound_of_ended sound busy line (t := respond .errBus 0 (busWrite (byteOf src tmp s) s))
        (by simp only [runLine, answer, raiseError_eq_respond])
  | none =>
    rw [step_busy port busy] at h
    rcases advance_cases h with ⟨src, line, rfl⟩ | ⟨l, tmp', s', line, -, ran, rfl⟩ | ⟨l, line, -, ended⟩
    · exact sound_offering sound busy line
    · have after := sound_afterLine sound busy line ran
      have unoffered : (atLine op (k + 1) tmp' s').wire = none := (runLine_goesOn ran).1.wire.trans port
      rw [afterLine, with_wire_none unoffered] at after
      exact after
    · have after := sound_of_ended sound busy line ended
      rwa [with_wire_none ((runLine_ended_responds ended).1.wire.trans port)] at after

theorem sound_accepted {s : State} (sound : Sound s) (port : s.wire = none) (idle : s.seq = .idle) (i : Instr) :
    Sound (accepted i s) where
  ranged inited := sound.ranged inited
  paired inited _ := (calibrated_of_sound_idle sound idle inited).2
  notInited partWay := by cases i <;> simp [initPartWay] at partWay
  done := (linesDone_iff rfl).mpr nofun
  port := by simp [portHoldsItsByte, port]

/-- A run through BUSY states keeps the invariant. -/
theorem sound_of_run {t : State} : ∀ (n : Nat) (s : State), Sound s → core.run n s = .next t →
    (∀ k, k < n → ∃ u : State, core.run k s = .next u ∧ u.seq ≠ .idle) → Sound t
  | 0, s, sound, reached, _ => by
    cases reached
    exact sound
  | n + 1, s, sound, reached, between => by
    obtain ⟨u, first, later⟩ := step_of_run_succ core reached
    cases seq : s.seq with
    | idle =>
      obtain ⟨v, same, busy⟩ := between 0 (Nat.succ_pos n)
      cases same
      exact absurd seq busy
    | busy op k tmp =>
      refine sound_of_run n u (sound_of_busy_step sound seq first) later fun k within => ?_
      obtain ⟨v, ran, busy⟩ := between (k + 1) (Nat.succ_lt_succ within)
      exact ⟨v, (run_step first k).symm.trans ran, busy⟩

theorem sound_of_runsTo {s t : State} (sound : Sound s) (runs : RunsTo s t) : Sound t := by
  obtain ⟨n, reached, between⟩ := runs
  exact sound_of_run n s sound reached fun k within => (between k within).imp fun u ⟨ran, busy, _⟩ => ⟨ran, busy⟩

/-- Settles O16: a step inside an operation does one line; an operation run whole is such steps in a row (O13); any
other step of an idle block touches no register. -/
theorem soundIsKeptByEveryStep : Obligations.SoundIsKeptByEveryStep := by
  intro s t sound h
  cases seq : s.seq with
  | busy op k tmp => exact sound_of_busy_step sound seq h
  | idle =>
    have calibrated : s.inited = true → Calibrated s := calibrated_of_sound_idle sound seq
    cases port : s.wire with
    | some b =>
      cases (step_wire port).symm.trans h
      rw [sendCommand_idle (s := { s with wire := none }) seq]
      exact sound_of_idle seq calibrated
    | none =>
    cases stepsTo_of_step h with
    | sendsKnown b i port' => cases port.symm.trans port'
    | sendsUnknown b e port' => cases port.symm.trans port'
    | advances op k tmp _ busy => cases seq.symm.trans busy
    | holdsOrTakes r _ _ _ held =>
      rcases holdOrTake_cases r s with ⟨-, same⟩ | ⟨n, -, same⟩ <;> rw [held, same] <;>
        exact sound_of_idle seq calibrated
    | waits _ _ same => exact same ▸ sound
    | answersIllegal w rest e _ _ _ answered => exact answered ▸ sound_of_idle rfl calibrated
    | accepts w rest i _ _ _ _ accepts =>
      exact accepts ▸ sound_accepted (s := taken rest s) (sound_of_idle seq calibrated) port seq i
    | runsWhole w rest i _ _ decoded _ ran =>
      have accepted := sound_accepted (s := taken rest s) (sound_of_idle seq calibrated) port seq i
      exact sound_of_runsTo accepted (runsTo_exec (s := taken rest s) (isRequest_of_decodeRequest decoded) port ran)

end Sys2Proof.Machine
